-- ==== Sys2Proof/Word.lean ====
section
/-! DEFINITION. The units the block works in: the byte, the 9-byte frame and the 5-byte payload
(00_scope.md rules R5 and R7; 20_memory.md rule R46: granularity is one byte). -/

namespace Sys2Proof

/-- An unsigned 8-bit byte; bit 0 is the least significant bit (R7). -/
abbrev Byte := BitVec 8

/-- A frame: 9 bytes, `f[0]` first on the wire, for requests and responses alike (R7, R60). -/
abbrev Frame := Vector Byte 9

/-- A request payload: 5 bytes, at frame offsets 3 to 7 (R5 `PAYLOAD_LEN`, R60). -/
abbrev Payload := Vector Byte 5

end Sys2Proof
end

