-- ==== Sys2Proof/Config.lean ====
section
/-! DEFINITION. What is fixed for one machine: the parameters of 00_scope.md rule R5, those with the source's
values as defaults and those the spec leaves OPEN, and the free values (constants without a body). -/

namespace Sys2Proof

/-- The argument that fixes the type `TransportErrorT` (R5, D19): which names stand for values of it. It has no
body, so nothing is known of how many values the type has or of what they are (log 1). -/
opaque Config.isTransportError : Nat → Bool

/-- `TransportErrorT`, the OPEN type of R5: the values the argument `Config.isTransportError` gives it, of which
R131 needs one, under the name 0. Every type with a value whose values can be compared and written out, as State
asks, is this one under some argument (log 1). The block only carries its values, as the statement
`TransportErrorsAreCarriedUnread` says. -/
structure TransportErrorT where
  token : Nat
  isValue : token = 0 ∨ Config.isTransportError token = true
  deriving DecidableEq, Repr

/-- The outcomes of `TryWrite` (00_scope.md R9, 42_transceiver.md R131). -/
inductive WriteAnswer where
  | transferred
  | wouldBlock
  | tErr (e : TransportErrorT)
  deriving DecidableEq, Repr, Inhabited

/-- The outcomes of `TryRead` (00_scope.md R9, 42_transceiver.md R131). -/
inductive ReadAnswer where
  | got (b : Byte)
  | wouldBlock
  | tErr (e : TransportErrorT)
  deriving DecidableEq, Repr, Inhabited

/-- A set of payloads: those whose 40-bit packing agrees with `value` on the bits of `mask`. -/
structure PayloadShape where
  mask : BitVec 40
  value : BitVec 40
  deriving DecidableEq, Repr

/-- A command code of the closed enumeration: a byte, or one of the three OPEN parameters by its name, whether
or not a code is given for it (R5, R64, D30). -/
inductive CommandCode where
  | byte (b : Byte)
  | readCo2Temp
  | getFirmware
  | selfCalibration
  deriving DecidableEq, Repr

/-- One code of the closed enumeration, with the payloads that are valid for it (R64, R65). -/
structure CommandEntry where
  code : CommandCode
  shapes : List PayloadShape
  deriving DecidableEq, Repr

namespace Config

/-- `START_BYTE` (R5, R63). -/
def startByte : Byte := 0xFF

/-- `SENSOR_INDEX` (R5, R63). -/
def sensorIndex : Byte := 0x01

/-- `CMD_READ_CO2` (R5, R64). -/
def cmdReadCo2 : Byte := 0x86

/-- `TEMP_OFFSET` (R5); its width, one byte, is log 13. -/
def tempOffset : Byte := 40

/-- `FW_EXTENDED_MIN`, used by the host-side handle only (R5, R164). -/
def fwExtendedMin : Nat := 5

end Config

/-- The configuration the host fixes before the first operation (R5, R204). The four constants have the values
of R5 as their defaults (93_implementation_defined.md; log 13). `commands` gives `CommandValid` and
`PayloadValid` beyond the settled entry for `CMD_READ_CO2`; every pair of predicates the spec admits is some
such list. A code no source gives is `none`. -/
structure Params where
  startByte : Byte := Config.startByte
  sensorIndex : Byte := Config.sensorIndex
  cmdReadCo2 : Byte := Config.cmdReadCo2
  tempOffset : Byte := Config.tempOffset
  commands : List CommandEntry
  cmdReadCo2Temp : Option Byte
  cmdGetFirmware : Option Byte
  cmdSelfCalibration : Option Byte
  deriving DecidableEq, Repr

namespace Config

/-- The default configuration of the spec's test vectors (95_test_vectors.md V-ENC-5, V-ENC-6): the one
command the source gives, with its zero payload, and no code for the others. DESIGN CHOICE (log 4). -/
def defaultParams : Params :=
  { commands := [], cmdReadCo2Temp := none, cmdGetFirmware := none, cmdSelfCalibration := none }

/-- `CMD_READ_CO2_TEMP` where the configuration gives no code: a free value (R5, R64, D30; log 5). -/
opaque freeCmdReadCo2Temp : Byte

/-- `CMD_GET_FIRMWARE` where the configuration gives no code: a free value (R5, R64, D30; log 5). -/
opaque freeCmdGetFirmware : Byte

/-- `CMD_SELF_CALIBRATION` where the configuration gives no code: a free value (R5, R64, D30; log 5). -/
opaque freeCmdSelfCalibration : Byte

/-- The answer of a transport, by its identity, to the n-th attempt ever made on it, when it is a write and no
answer is listed: a free draw (R6 (3), R131, D19; log 8). -/
opaque freeWriteAnswer : Nat → Nat → WriteAnswer

/-- The answer of a transport, by its identity, to the n-th attempt ever made on it, when it is a read and no
answer is listed: a free draw (R6 (3), R131, D19; log 8). -/
opaque freeReadAnswer : Nat → Nat → ReadAnswer

end Config

end Sys2Proof
end

