-- ==== Sys2Proof/Syntax.lean ====
section
/-! DEFINITION. The operations of the block and what crosses its boundary: the instruction type (one
constructor per row of spec/opcode_table.json), the host's transactions and events, and the results. -/

namespace Sys2Proof

/-- One constructor per row of the opcode table: the eight operations of 30_encoding.md rule R66 with
the operand ports rule R67 gives each, and the four frame commands of rule R64. -/
inductive Instr where
  /-- `CSUM`, CHECKSUM (R102, R103). -/
  | csum (fin : Frame)
  /-- `ENC`, ENCODE (R104, R105). -/
  | enc (cmd : Byte) (pl : Payload)
  /-- `VAL`, VALIDATE (R106, R107). -/
  | val (fin : Frame)
  /-- `XCO2`, EXTRACT_CO2 (R110, R111). -/
  | xco2 (fin : Frame)
  /-- `XCT`, EXTRACT_CO2_TEMP (R112, R113). -/
  | xct (fin : Frame)
  /-- `BEGIN`, BEGIN_EXCHANGE (R133, R134). -/
  | beginExchange (cmd : Byte) (pl : Payload)
  /-- `PWR`, POLL_WRITE (R135, R136). -/
  | pwr
  /-- `PRD`, POLL_READ (R137, R138). -/
  | prd
  /-- `FRAME.READ_CO2`: code 0x86, whose payload is five zero bytes (R64, R65). -/
  | frameReadCo2
  /-- `FRAME.READ_CO2_TEMP`: code `CMD_READ_CO2_TEMP`, payload OPEN (R64, R65). -/
  | frameReadCo2Temp (pl : Payload)
  /-- `FRAME.GET_FIRMWARE`: code `CMD_GET_FIRMWARE`, payload OPEN (R64, R65). -/
  | frameGetFirmware (pl : Payload)
  /-- `FRAME.SELF_CALIBRATION`: code `CMD_SELF_CALIBRATION`, payload OPEN (R64, R65). -/
  | frameSelfCalibration (pl : Payload)
  deriving DecidableEq, Repr

/-- One host transaction as it stands on the block's input ports (R66, R67): the selector byte, whose
bits [2:0] are `op` (log 7 says what its other values select), and the operand ports. -/
structure Transaction where
  sel : Byte
  cmd : Byte
  pl : Payload
  fin : Frame
  deriving DecidableEq, Repr

/-- What the host can do to the block between two operations: invoke one (R6 (1)), or create the handle
that owns it, which is the reset event (70_reset_and_hazards.md R200). -/
inductive HostEvent where
  | operation (t : Transaction)
  | reset
  deriving DecidableEq, Repr

/-- The three error kinds of 60_exceptions.md rule R180, with what each records. -/
inductive BlockError where
  /-- `TransportError`, carrying the transport's error unchanged. -/
  | transport (e : TransportErrorT)
  /-- `UnexpectedStartByte`, carrying nothing (D9). -/
  | unexpectedStartByte
  /-- `ChecksumMismatch`: the recomputed checksum, then received byte 8 (D7). -/
  | checksumMismatch (exp act : Byte)
  deriving DecidableEq, Repr

/-- What an operation puts on the result port: a result code of 30_encoding.md rule R68 with the output
fields that code carries, and no other field (D23). -/
inductive Result where
  /-- `OK` of `BEGIN`, with no field (D32). -/
  | ok
  /-- `OK` of `CSUM`. -/
  | okByte (byteOut : Byte)
  /-- `OK` of `ENC` and `VAL`. -/
  | okFrame (frameOut : Frame)
  /-- `OK` of `XCO2`. -/
  | okCo2 (co2 : BitVec 16)
  /-- `OK` of `XCT`; `temp` is in two's complement (R45). -/
  | okCo2Temp (co2 temp : BitVec 16)
  | inProgress
  | complete
  | ready (frameOut : Frame)
  /-- `ERR_TRANSPORT`, `ERR_START` or `ERR_CHECKSUM`, after the error. -/
  | error (e : BlockError)
  deriving DecidableEq, Repr

end Sys2Proof
end

