-- ==== Sys2Proof/Machine/Operands.lean ====
section
/-! DEFINITION. How values are assembled from frame bytes and frames from operands: port packing
(20_memory.md R45), the two frame views (30_encoding.md R60, R61), the checksum (41_codec.md R100), frame
encoding, validation and extraction, and the OPEN predicates `CommandValid` and `PayloadValid` (R5). -/

namespace Sys2Proof.Machine

/-- The 40-bit payload port: payload byte `i` at bits `[8i+7 : 8i]` (R45). -/
def packPayload (p : Payload) : BitVec 40 := p[4] ++ p[3] ++ p[2] ++ p[1] ++ p[0]

/-- The payload on a 40-bit port (R45). -/
def unpackPayload (v : BitVec 40) : Payload :=
  #v[v.extractLsb' 0 8, v.extractLsb' 8 8, v.extractLsb' 16 8, v.extractLsb' 24 8, v.extractLsb' 32 8]

/-- The 72-bit frame port: frame byte `i` at bits `[8i+7 : 8i]` (R45). -/
def packFrame (f : Frame) : BitVec 72 :=
  f[8] ++ f[7] ++ f[6] ++ f[5] ++ f[4] ++ f[3] ++ f[2] ++ f[1] ++ f[0]

/-- The frame on a 72-bit port (R45). -/
def unpackFrame (v : BitVec 72) : Frame :=
  #v[v.extractLsb' 0 8, v.extractLsb' 8 8, v.extractLsb' 16 8, v.extractLsb' 24 8, v.extractLsb' 32 8,
    v.extractLsb' 40 8, v.extractLsb' 48 8, v.extractLsb' 56 8, v.extractLsb' 64 8]

/-- Exactly 9 accumulated bytes as a frame, the oldest as byte 0 (R42, R138). -/
def frameOfBytes : List Byte → Option Frame
  | [b0, b1, b2, b3, b4, b5, b6, b7, b8] => some #v[b0, b1, b2, b3, b4, b5, b6, b7, b8]
  | _ => none

/-- Request view, offset 2 (R60). -/
def requestCommand (f : Frame) : Byte := f[2]

/-- Request view, offsets 3 to 7 (R60). -/
def requestPayload (f : Frame) : Payload := #v[f[3], f[4], f[5], f[6], f[7]]

/-- Response view, offset 1: the command echo, which the block never checks (R61, R142). -/
def responseCommand (f : Frame) : Byte := f[1]

/-- Response view, offsets 2 to 7 (R61). -/
def responseData (f : Frame) : Vector Byte 6 := #v[f[2], f[3], f[4], f[5], f[6], f[7]]

/-- The exact sum of bytes 1 to 7, at most 1785 (R100). -/
def bodySum (f : Frame) : Nat :=
  f[1].toNat + f[2].toNat + f[3].toNat + f[4].toNat + f[5].toNat + f[6].toNat + f[7].toNat

/-- `cks(f)` (R100; 90_conflicts.md C1: the sum is over bytes 1 to 7). -/
def checksum (f : Frame) : Byte := BitVec.ofNat 8 ((0x100 - bodySum f % 256) % 256)

/-- A well-formed frame: the only two properties the block checks (R62). -/
def frameWellFormed (cfg : Params) (f : Frame) : Bool := f[0] == cfg.startByte && f[8] == checksum f

/-- The frame `ENC` builds: start, sensor index, command, payload, checksum (R105). -/
def encodeFrame (cfg : Params) (cmd : Byte) (pl : Payload) : Frame :=
  let f : Frame := #v[cfg.startByte, cfg.sensorIndex, cmd, pl[0], pl[1], pl[2], pl[3], pl[4], 0]
  f.set 8 (checksum f)

/-- `VAL`: the start byte first, then the checksum; on success the bytes unchanged (R107, R108). -/
def validateFrame (cfg : Params) (f : Frame) : Except BlockError Frame :=
  if f[0] ≠ cfg.startByte then .error .unexpectedStartByte
  else if f[8] ≠ checksum f then .error (.checksumMismatch (checksum f) f[8])
  else .ok f

/-- The CO₂ value: response data bytes 0 and 1, big-endian (R43, R73, R111). -/
def extractCo2 (f : Frame) : BitVec 16 :=
  (responseData f)[0].setWidth 16 * 256 + (responseData f)[1].setWidth 16

/-- The temperature: response data byte 2 read unsigned, less `TEMP_OFFSET`, as an s16 (R73, R113, D16). -/
def extractTemp (cfg : Params) (f : Frame) : BitVec 16 :=
  BitVec.ofInt 16 (((responseData f)[2].toNat : Int) - cfg.tempOffset.toNat)

/-- The all-zero payload of `CMD_READ_CO2` (R65). -/
def zeroPayload : Payload := #v[0, 0, 0, 0, 0]

/-- Whether a payload lies in a shape of the configuration. -/
def shapeAdmits (sh : PayloadShape) (pl : Payload) : Bool := (packPayload pl &&& sh.mask) == sh.value

/-- The byte a command code stands for: for an OPEN parameter the code the configuration gives, or else its free
value (R5, R64, D30; log 5). -/
def codeValue (cfg : Params) : CommandCode → Byte
  | .byte b => b
  | .readCo2Temp => cfg.cmdReadCo2Temp.getD Config.freeCmdReadCo2Temp
  | .getFirmware => cfg.cmdGetFirmware.getD Config.freeCmdGetFirmware
  | .selfCalibration => cfg.cmdSelfCalibration.getD Config.freeCmdSelfCalibration

/-- `CommandValid` (R5, D5): `CMD_READ_CO2`, and the codes the configuration adds. -/
def commandValid (cfg : Params) (cmd : Byte) : Bool :=
  cmd == cfg.cmdReadCo2 || cfg.commands.any (fun e => codeValue cfg e.code == cmd)

/-- `PayloadValid` (R5, D6): zeros for `CMD_READ_CO2`, and the payloads the configuration adds. -/
def payloadValid (cfg : Params) (cmd : Byte) (pl : Payload) : Bool :=
  (cmd == cfg.cmdReadCo2 && pl == zeroPayload) ||
    cfg.commands.any (fun e => codeValue cfg e.code == cmd && e.shapes.any (fun sh => shapeAdmits sh pl))

end Sys2Proof.Machine
end

