-- ==== Sys2Proof/WellFormed.lean ====
section
/-! DEFINITION. The checks on an instruction under a configuration: that the table's row has a selector
the transaction can carry, and that its operands have the shapes the source constrains statically
(41_codec.md R104, 30_encoding.md R69 (d)). -/

namespace Sys2Proof

/-- Why an instruction is not well formed. -/
inductive IllFormed where
  /-- The configuration gives the frame command no code (R64, D30). -/
  | codeNotGiven
  /-- The code the configuration gives is already the selector of another row (log 7). -/
  | selectorTaken
  /-- `CommandValid(cmd)` is false (R69 (d), D5). -/
  | commandNotInEnumeration
  /-- `PayloadValid(cmd, pl)` is false (R69 (d), D6). -/
  | payloadShapeInvalid
  deriving DecidableEq, Repr

/-- The check that a frame command's code can stand as a selector beside the codes in `taken`. -/
def checkSelector (code : Option Byte) (taken : List (Option Byte)) : Option IllFormed :=
  match code with
  | none => some .codeNotGiven
  | some c =>
    if c.toNat < 8 ∨ taken.contains (some c) then some .selectorTaken else none

/-- The check on operands that `ENC`, `BEGIN` and the frame commands share (R105, R134). -/
def checkOperands (cfg : Params) (cmd : Byte) (pl : Payload) : Option IllFormed :=
  if Machine.commandValid cfg cmd = false then some .commandNotInEnumeration
  else if Machine.payloadValid cfg cmd pl = false then some .payloadShapeInvalid
  else none

/-- Whether the row has a selector of its own under the configuration. -/
def Instr.selectorProblem (cfg : Params) : Instr → Option IllFormed
  | .csum _ => none
  | .enc _ _ => none
  | .val _ => none
  | .xco2 _ => none
  | .xct _ => none
  | .beginExchange _ _ => none
  | .pwr => none
  | .prd => none
  | .frameReadCo2 => checkSelector (some cfg.cmdReadCo2) []
  | .frameReadCo2Temp _ => checkSelector cfg.cmdReadCo2Temp [some cfg.cmdReadCo2]
  | .frameGetFirmware _ => checkSelector cfg.cmdGetFirmware [some cfg.cmdReadCo2, cfg.cmdReadCo2Temp]
  | .frameSelfCalibration _ =>
    checkSelector cfg.cmdSelfCalibration [some cfg.cmdReadCo2, cfg.cmdReadCo2Temp, cfg.cmdGetFirmware]

/-- Whether the operands have a shape the source admits. -/
def Instr.operandProblem (cfg : Params) : Instr → Option IllFormed
  | .csum _ => none
  | .enc cmd pl => checkOperands cfg cmd pl
  | .val _ => none
  | .xco2 _ => none
  | .xct _ => none
  | .beginExchange cmd pl => checkOperands cfg cmd pl
  | .pwr => none
  | .prd => none
  | .frameReadCo2 => none
  | .frameReadCo2Temp pl => checkOperands cfg (Machine.codeValue cfg .readCo2Temp) pl
  | .frameGetFirmware pl => checkOperands cfg (Machine.codeValue cfg .getFirmware) pl
  | .frameSelfCalibration pl => checkOperands cfg (Machine.codeValue cfg .selfCalibration) pl

/-- The first problem of an instruction, if it has one. -/
def Instr.problem (cfg : Params) (i : Instr) : Option IllFormed :=
  (i.selectorProblem cfg).or (i.operandProblem cfg)

/-- A transaction can carry the instruction. -/
abbrev Instr.Encodable (cfg : Params) (i : Instr) : Prop := i.selectorProblem cfg = none

/-- The instruction is well formed. -/
abbrev Instr.WellFormed (cfg : Params) (i : Instr) : Prop := i.problem cfg = none

end Sys2Proof
end

