-- ==== Sys2Proof/Decode.lean ====
section
/-! DEFINITION. Decoding a transaction, total on any bytes and rejecting by name, and the encoder. A
transaction is 16 bytes whatever the operation (30_encoding.md R70): the selector byte, `cmd`, the 5 bytes
of `pl` and the 9 bytes of `fin`, each port's byte 0 first (R67; the byte layout is log 7). -/

namespace Sys2Proof

/-- Why bytes are no operation. -/
inductive DecodeError where
  /-- Fewer than the 16 bytes of a transaction. -/
  | truncated (length : Nat)
  /-- A selector byte that is neither an `op` value nor the code of a frame command. -/
  | reservedSelector (sel : Byte)
  deriving DecidableEq, Repr

/-- The instruction on the input ports: each operation takes only the ports rule R67 lists for it. -/
def decodePorts (cfg : Params) (t : Transaction) : Except DecodeError Instr :=
  if t.sel = 0b000 then .ok (.csum t.fin)
  else if t.sel = 0b001 then .ok (.enc t.cmd t.pl)
  else if t.sel = 0b010 then .ok (.val t.fin)
  else if t.sel = 0b011 then .ok (.xco2 t.fin)
  else if t.sel = 0b100 then .ok (.xct t.fin)
  else if t.sel = 0b101 then .ok (.beginExchange t.cmd t.pl)
  else if t.sel = 0b110 then .ok .pwr
  else if t.sel = 0b111 then .ok .prd
  else if t.sel = cfg.cmdReadCo2 then .ok .frameReadCo2
  else if some t.sel = cfg.cmdReadCo2Temp then .ok (.frameReadCo2Temp t.pl)
  else if some t.sel = cfg.cmdGetFirmware then .ok (.frameGetFirmware t.pl)
  else if some t.sel = cfg.cmdSelfCalibration then .ok (.frameSelfCalibration t.pl)
  else .error (.reservedSelector t.sel)

/-- The first transaction of a byte sequence, with the bytes after it. -/
def transactionOfBytes : List Byte → Option (Transaction × List Byte)
  | sel :: cmd :: p0 :: p1 :: p2 :: p3 :: p4 ::
      f0 :: f1 :: f2 :: f3 :: f4 :: f5 :: f6 :: f7 :: f8 :: rest =>
    some ({ sel := sel, cmd := cmd, pl := #v[p0, p1, p2, p3, p4],
            fin := #v[f0, f1, f2, f3, f4, f5, f6, f7, f8] }, rest)
  | _ => none

/-- The bytes of a transaction. -/
def transactionBytes (t : Transaction) : List Byte :=
  t.sel :: t.cmd :: (t.pl.toList ++ t.fin.toList)

/-- The decoder: the instruction the first 16 bytes carry, with the bytes after them. -/
def decode (cfg : Params) (bytes : List Byte) : Except DecodeError (Instr × List Byte) :=
  match transactionOfBytes bytes with
  | none => .error (.truncated bytes.length)
  | some (t, rest) =>
    match decodePorts cfg t with
    | .ok i => .ok (i, rest)
    | .error e => .error e

/-- The operands of a port the operation does not read: zeros. -/
def idlePorts (sel : Byte) : Transaction :=
  { sel := sel, cmd := 0, pl := #v[0, 0, 0, 0, 0], fin := #v[0, 0, 0, 0, 0, 0, 0, 0, 0] }

/-- The ports that carry an instruction; none where the configuration gives its command no code. -/
def encodePorts (cfg : Params) : Instr → Option Transaction
  | .csum fin => some { idlePorts 0b000 with fin := fin }
  | .enc cmd pl => some { idlePorts 0b001 with cmd := cmd, pl := pl }
  | .val fin => some { idlePorts 0b010 with fin := fin }
  | .xco2 fin => some { idlePorts 0b011 with fin := fin }
  | .xct fin => some { idlePorts 0b100 with fin := fin }
  | .beginExchange cmd pl => some { idlePorts 0b101 with cmd := cmd, pl := pl }
  | .pwr => some (idlePorts 0b110)
  | .prd => some (idlePorts 0b111)
  | .frameReadCo2 => some (idlePorts cfg.cmdReadCo2)
  | .frameReadCo2Temp pl => cfg.cmdReadCo2Temp.map (fun c => { idlePorts c with pl := pl })
  | .frameGetFirmware pl => cfg.cmdGetFirmware.map (fun c => { idlePorts c with pl := pl })
  | .frameSelfCalibration pl => cfg.cmdSelfCalibration.map (fun c => { idlePorts c with pl := pl })

/-- The encoder: the 16 bytes of an instruction (R66, R67). -/
def encode (cfg : Params) (i : Instr) : Option (List Byte) :=
  (encodePorts cfg i).map transactionBytes

/-- Byte `k` of the number `w` of `nbits` bits: bits `[8k+7 : 8k]`. -/
def tableByte (nbits w k : Nat) : Byte := BitVec.ofNat 8 ((w % 2 ^ nbits) / 2 ^ (8 * k))

/-- The 16 bytes of a transaction whose first `nbits` bits are `w` and whose other bits are 0. -/
def tableBytes (nbits w : Nat) : List Byte :=
  [tableByte nbits w 0, tableByte nbits w 1, tableByte nbits w 2, tableByte nbits w 3,
    tableByte nbits w 4, tableByte nbits w 5, tableByte nbits w 6, tableByte nbits w 7,
    tableByte nbits w 8, tableByte nbits w 9, tableByte nbits w 10, tableByte nbits w 11,
    tableByte nbits w 12, tableByte nbits w 13, tableByte nbits w 14, tableByte nbits w 15]

/-- The same transaction on the input ports. -/
def tableTransaction (nbits w : Nat) : Transaction :=
  match transactionOfBytes (tableBytes nbits w) with
  | some (t, _) => t
  | none => idlePorts 0

/-- The instruction the decoder reads from a table word, under the default configuration. -/
def decodeTableWord (nbits w : Nat) : Option Instr :=
  match decode Config.defaultParams (tableBytes nbits w) with
  | .ok (i, _) => some i
  | .error _ => none

end Sys2Proof
end

