-- ==== Sys2Proof/Machine/State.lean ====
section
/-! DEFINITION. The machine's state as plain data, the reasons a step can stop, and the state after reset. -/

namespace Sys2Proof.Machine

/-- `phase` (10_state.md R20, R24); the reserved code 0b11 is left out of the type, as R24 permits. -/
inductive Phase where
  | idle
  | writing
  | reading
  deriving DecidableEq, Repr

/-- The four registers of 10_state.md rule R20, the result port (R33), the configuration the host fixes
(R204), the transport as an agent (R6 (3)), the byte histories (R41), and the host's pending events (R6 (1)). -/
structure State where
  /-- `phase` (R24). -/
  phase : Phase
  /-- `tx_frame`: the request being sent (R25). -/
  txFrame : Frame
  /-- `tx_count`, 4 bits: bytes the transport has accepted (R26). -/
  txCount : BitVec 4
  /-- `rx_buf`: response bytes, oldest first (R27). -/
  rxBuf : List Byte
  /-- The result port; `none` until the first operation returns (R33, R201). -/
  result : Option Result
  /-- The configuration, which no step changes (R5, R204). -/
  cfg : Params
  /-- The identity of the transport the block owns (R167, R194; log 8). -/
  transportId : Nat
  /-- The transport's next answers to `TryWrite`, first first (R131; log 8). -/
  writeAnswers : List WriteAnswer
  /-- The transport's next answers to `TryRead`, first first (R131; log 8). -/
  readAnswers : List ReadAnswer
  /-- Attempts ever made on this transport, by whichever block owned it; it numbers its free draws (R132; log 8). -/
  attempts : Nat
  /-- `out`: the bytes the transport has accepted, in order (R41). -/
  outHistory : List Byte
  /-- `in`: the bytes the transport has given, in order (R41). -/
  inHistory : List Byte
  /-- What the host does next, first first (R6 (1), R22; log 9). -/
  events : List HostEvent
  deriving DecidableEq, Repr

/-- A transport as its owner hands it over: its identity, the answers it still has listed, the attempts made on
it so far, and the bytes that went over it (43_host_boundary.md R167; 20_memory.md R41; log 8). -/
structure Transport where
  id : Nat
  writeAnswers : List WriteAnswer
  readAnswers : List ReadAnswer
  attempts : Nat
  outHistory : List Byte
  inHistory : List Byte
  deriving DecidableEq, Repr

/-- A state no run reaches, in which the spec gives an operation nothing to work on. Both are safe: the
machine stops where the invariant of rule R30 is broken (log 10). -/
inductive Fault where
  /-- `PWR` in `WRITING` with `tx_count` past 8: there is no byte `tx_frame[tx_count]` (R26). Safe. -/
  | txIndexOutOfRange
  /-- `PRD` in `READING` that would hold more than 9 bytes in `rx_buf` (R27). Safe. -/
  | rxBufTooLong
  deriving DecidableEq, Repr

/-- An input the model gives no meaning; a refusal ends the run (60_exceptions.md R185). -/
inductive Refusal where
  /-- An instruction of the table without a meaning yet; raised by no arm of `exec`. Safe. -/
  | notModelled (mnemonic : String)
  /-- `CommandNotInEnumeration`: `ENC`, `BEGIN` or a frame command whose code is outside `CommandValid`
  (R69 (d), R105, R134). Safe. -/
  | commandNotInEnumeration
  /-- `PayloadShapeInvalid`: `ENC`, `BEGIN` or a frame command whose payload is outside `PayloadValid`
  (R69 (d), R105, R134). Safe. -/
  | payloadShapeInvalid
  /-- The host's transaction is no operation; raised by `step` when decoding fails. Safe. -/
  | undecodable (e : DecodeError)
  deriving DecidableEq, Repr

/-- The block right after its creation, with any configuration (R33, R200, R201). `tx_frame` is
unspecified there and never read; its zeros are a DESIGN CHOICE (log 2). -/
def State.resetWith (cfg : Params) : State :=
  { phase := .idle
    txFrame := #v[0, 0, 0, 0, 0, 0, 0, 0, 0]
    txCount := 0
    rxBuf := []
    result := none
    cfg := cfg
    transportId := 0
    writeAnswers := []
    readAnswers := []
    attempts := 0
    outHistory := []
    inHistory := []
    events := [] }

/-- The machine right after reset, under the default configuration (R33, R201; log 4). -/
def State.reset : State := State.resetWith Config.defaultParams

end Sys2Proof.Machine
end

