-- ==== Sys2Proof/Machine/Flags.lean ====
section
/-! DEFINITION. The status the block reports. It has no flags or condition codes (10_state.md R23): its
only status is the result code of the operation just performed, with that code's output fields
(30_encoding.md R68). The code of `phase` stands here too (10_state.md R24). -/

namespace Sys2Proof.Machine

/-- The 2-bit code of `phase` (R24). -/
def Phase.code : Phase → BitVec 2
  | .idle => 0b00
  | .writing => 0b01
  | .reading => 0b10

end Sys2Proof.Machine

namespace Sys2Proof

/-- The 3-bit result code (R68); 0b111 is reserved and no result has it. -/
def Result.code : Result → BitVec 3
  | .ok => 0b000
  | .okByte _ => 0b000
  | .okFrame _ => 0b000
  | .okCo2 _ => 0b000
  | .okCo2Temp _ _ => 0b000
  | .inProgress => 0b001
  | .complete => 0b010
  | .ready _ => 0b011
  | .error (.transport _) => 0b100
  | .error .unexpectedStartByte => 0b101
  | .error (.checksumMismatch _ _) => 0b110

/-- Output field `byte_out`; an output field the code does not carry has no value (R68, D23). -/
def Result.byteOut : Result → Option Byte
  | .okByte b => some b
  | _ => none

/-- Output field `frame_out` (R68). -/
def Result.frameOut : Result → Option Frame
  | .okFrame f => some f
  | .ready f => some f
  | _ => none

/-- Output field `co2` (R68). -/
def Result.co2 : Result → Option (BitVec 16)
  | .okCo2 c => some c
  | .okCo2Temp c _ => some c
  | _ => none

/-- Output field `temp` (R68). -/
def Result.temp : Result → Option (BitVec 16)
  | .okCo2Temp _ t => some t
  | _ => none

/-- Output field `terr` (R68). -/
def Result.terr : Result → Option TransportErrorT
  | .error (.transport e) => some e
  | _ => none

/-- Output field `exp` (R68, D7). -/
def Result.exp : Result → Option Byte
  | .error (.checksumMismatch x _) => some x
  | _ => none

/-- Output field `act` (R68, D7). -/
def Result.act : Result → Option Byte
  | .error (.checksumMismatch _ a) => some a
  | _ => none

end Sys2Proof
end

