-- ==== Sys2Proof/Machine/Ops.lean ====
section
/-! DEFINITION. The operations over the state that the meanings share: the result port, `ResetToIdle`, the
transport primitives, raising an error, and starting an exchange. The block has no addressed memory
(20_memory.md R40) and no trap: raising an error is returning its result after its state effect
(60_exceptions.md R188), and nothing returns from one (R189). -/

namespace Sys2Proof.Machine

/-- `return R`: put `R` on the result port (R10). -/
def State.ret (r : Result) (s : State) : State := { s with result := some r }

/-- `ResetToIdle()` (R130); `tx_frame` is left as it is (D36). -/
def State.resetToIdle (s : State) : State := { s with phase := .idle, txCount := 0, rxBuf := [] }

/-- The registers at the start of an exchange (R134). -/
def State.loadRequest (f : Frame) (s : State) : State :=
  { s with phase := .writing, txFrame := f, txCount := 0, rxBuf := [] }

/-- One more byte of the request accepted; the ninth turns the exchange to reading (R26, R136, D11). -/
def State.advanceTx (s : State) : State :=
  { s with
    txCount := s.txCount + 1
    phase := if s.txCount + 1 = 9 then .reading else s.phase }

/-- `s.rx_buf <- s.rx_buf ++ [b]` (R8, R27). -/
def State.pushRx (b : Byte) (s : State) : State := { s with rxBuf := s.rxBuf ++ [b] }

/-- The transport's answer to the next `TryWrite`: the first listed one, or else a free draw (R6 (3)). -/
def State.nextWriteAnswer (s : State) : WriteAnswer :=
  match s.writeAnswers with
  | a :: _ => a
  | [] => Config.freeWriteAnswer s.transportId s.attempts

/-- The transport's answer to the next `TryRead`: the first listed one, or else a free draw (R6 (3)). -/
def State.nextReadAnswer (s : State) : ReadAnswer :=
  match s.readAnswers with
  | a :: _ => a
  | [] => Config.freeReadAnswer s.transportId s.attempts

/-- The environment after a write attempt with this answer; an accepted byte is emitted (R41, R49). -/
def State.afterWrite (b : Byte) (a : WriteAnswer) (s : State) : State :=
  { s with
    writeAnswers := s.writeAnswers.tail
    attempts := s.attempts + 1
    outHistory := match a with
      | .transferred => s.outHistory ++ [b]
      | .wouldBlock => s.outHistory
      | .tErr _ => s.outHistory }

/-- The environment after a read attempt with this answer; a byte given is consumed (R41, R49). -/
def State.afterRead (a : ReadAnswer) (s : State) : State :=
  { s with
    readAnswers := s.readAnswers.tail
    attempts := s.attempts + 1
    inHistory := match a with
      | .got b => s.inHistory ++ [b]
      | .wouldBlock => s.inHistory
      | .tErr _ => s.inHistory }

/-- `TryWrite(b)` (R9, R131): one attempt, its answer and the state after it. -/
def tryWrite (b : Byte) (s : State) : WriteAnswer × State :=
  (s.nextWriteAnswer, s.afterWrite b s.nextWriteAnswer)

/-- `TryRead()` (R9, R131): one attempt, its answer and the state after it. -/
def tryRead (s : State) : ReadAnswer × State :=
  (s.nextReadAnswer, s.afterRead s.nextReadAnswer)

/-- `raise E(info)` (R10, R188): the error's result, with no other effect. -/
def raiseError (e : BlockError) (s : State) : State := s.ret (.error e)

/-- Raising an error of the transceiver: `ResetToIdle`, then the error's result (R180). -/
def raiseFatal (e : BlockError) (s : State) : State := raiseError e s.resetToIdle

/-- What `ENC`, `BEGIN` and the frame commands share: the two model refusals, then the frame (R105, R134). -/
def withRequest (cmd : Byte) (pl : Payload) (s : State) (k : Frame → State) :
    Host.Outcome State Fault Refusal :=
  if commandValid s.cfg cmd = false then .refused .commandNotInEnumeration
  else if payloadValid s.cfg cmd pl = false then .refused .payloadShapeInvalid
  else .next (k (encodeFrame s.cfg cmd pl))

/-- `BEGIN` once the frame is made: load it and return `OK`; no transport attempt (R134). -/
def startExchange (f : Frame) (s : State) : State := (s.loadRequest f).ret .ok

/-- Start the exchange of a command, refused where `CommandValid` or `PayloadValid` is false (R134, R185). -/
def requestExchange (cmd : Byte) (pl : Payload) (s : State) : Host.Outcome State Fault Refusal :=
  withRequest cmd pl s (fun f => startExchange f s)

/-- The transport of a block, as it stands (R167). -/
def State.transport (s : State) : Transport :=
  { id := s.transportId
    writeAnswers := s.writeAnswers
    readAnswers := s.readAnswers
    attempts := s.attempts
    outHistory := s.outHistory
    inHistory := s.inHistory }

/-- Give the block a transport (R167, R204). -/
def State.attach (tr : Transport) (s : State) : State :=
  { s with
    transportId := tr.id
    writeAnswers := tr.writeAnswers
    readAnswers := tr.readAnswers
    attempts := tr.attempts
    outHistory := tr.outHistory
    inHistory := tr.inHistory }

/-- The reset event: the registers and the result port as after creation; the configuration, the
transport and the histories are not the block's to reset (R200, R33; log 11). -/
def State.resetEvent (s : State) : State :=
  { s with
    phase := .idle
    txFrame := (State.resetWith s.cfg).txFrame
    txCount := 0
    rxBuf := []
    result := none }

end Sys2Proof.Machine
end

