-- ==== Sys2Proof/Machine/Codec.lean ====
section
/-! DEFINITION. The frame codec operations (41_codec.md): pure, each writes the result port only (R122). -/

namespace Sys2Proof.Machine

/-- `CSUM` (R103). -/
def execCsum (fin : Frame) (s : State) : Host.Outcome State Fault Refusal :=
  .next (s.ret (.okByte (checksum fin)))

/-- `ENC` (R105). -/
def execEnc (cmd : Byte) (pl : Payload) (s : State) : Host.Outcome State Fault Refusal :=
  withRequest cmd pl s (fun f => s.ret (.okFrame f))

/-- `VAL` (R107). -/
def execVal (fin : Frame) (s : State) : Host.Outcome State Fault Refusal :=
  match validateFrame s.cfg fin with
  | .ok f => .next (s.ret (.okFrame f))
  | .error e => .next (raiseError e s)

/-- `XCO2` (R111). -/
def execXco2 (fin : Frame) (s : State) : Host.Outcome State Fault Refusal :=
  .next (s.ret (.okCo2 (extractCo2 fin)))

/-- `XCT` (R113). -/
def execXct (fin : Frame) (s : State) : Host.Outcome State Fault Refusal :=
  .next (s.ret (.okCo2Temp (extractCo2 fin) (extractTemp s.cfg fin)))

end Sys2Proof.Machine
end

