-- ==== Sys2Proof/Machine/FrameCommands.lean ====
section
/-! DEFINITION. The frame commands (30_encoding.md R64, R65): each starts the exchange whose request frame
carries its code at byte 2, which is what `BEGIN` with that code does, with its two refusals (log 6). Response
byte 1 is never compared with it (42_transceiver.md R142). -/

namespace Sys2Proof.Machine

/-- `FRAME.READ_CO2`: code `CMD_READ_CO2` with the zero payload (R64, R65). -/
def execFrameReadCo2 (s : State) : Host.Outcome State Fault Refusal :=
  requestExchange s.cfg.cmdReadCo2 zeroPayload s

/-- `FRAME.READ_CO2_TEMP` (R64, R65, D30). -/
def execFrameReadCo2Temp (pl : Payload) (s : State) : Host.Outcome State Fault Refusal :=
  requestExchange (codeValue s.cfg .readCo2Temp) pl s

/-- `FRAME.GET_FIRMWARE` (R64, R65, D30). -/
def execFrameGetFirmware (pl : Payload) (s : State) : Host.Outcome State Fault Refusal :=
  requestExchange (codeValue s.cfg .getFirmware) pl s

/-- `FRAME.SELF_CALIBRATION` (R64, R65, D30). -/
def execFrameSelfCalibration (pl : Payload) (s : State) : Host.Outcome State Fault Refusal :=
  requestExchange (codeValue s.cfg .selfCalibration) pl s

end Sys2Proof.Machine
end

