-- ==== Sys2Proof/Machine/Transceiver.lean ====
section
/-! DEFINITION. The transceiver operations (42_transceiver.md). -/

namespace Sys2Proof.Machine

/-- `BEGIN` (R134): in every phase, abandoning an exchange in progress. -/
def execBegin (cmd : Byte) (pl : Payload) (s : State) : Host.Outcome State Fault Refusal :=
  requestExchange cmd pl s

/-- `PWR` (R136). -/
def execPwr (s : State) : Host.Outcome State Fault Refusal :=
  if s.phase = .writing then
    match s.txFrame[s.txCount.toNat]? with
    | none => .fault .txIndexOutOfRange
    | some b =>
      match tryWrite b s with
      | (.wouldBlock, s1) => .next (s1.ret .inProgress)
      | (.tErr e, s1) => .next (raiseFatal (.transport e) s1)
      | (.transferred, s1) =>
        .next (s1.advanceTx.ret (if s1.txCount + 1 = 9 then .complete else .inProgress))
  else .next (s.ret .complete)

/-- The end of a `PRD` whose byte is in `rx_buf`: nothing more below 9 bytes; at 9 the validation, with
`ResetToIdle` on success and on failure alike (R138, D10). -/
def finishRead (s : State) : Host.Outcome State Fault Refusal :=
  if s.rxBuf.length < 9 then .next (s.ret .inProgress)
  else
    match frameOfBytes s.rxBuf with
    | none => .fault .rxBufTooLong
    | some f =>
      match validateFrame s.cfg f with
      | .ok g => .next (s.resetToIdle.ret (.ready g))
      | .error e => .next (raiseFatal e s)

/-- `PRD` (R138). -/
def execPrd (s : State) : Host.Outcome State Fault Refusal :=
  if s.phase = .reading then
    match tryRead s with
    | (.wouldBlock, s1) => .next (s1.ret .inProgress)
    | (.tErr e, s1) => .next (raiseFatal (.transport e) s1)
    | (.got b, s1) => finishRead (s1.pushRx b)
  else .next (s.ret .inProgress)

end Sys2Proof.Machine
end

