-- ==== Sys2Proof/Machine/Dispatch.lean ====
section
/-! DEFINITION. One arm per constructor of `Instr`: the meaning of each instruction. -/

namespace Sys2Proof.Machine

def exec (i : Instr) (s : State) : Host.Outcome State Fault Refusal :=
  match i with
  | .csum fin => Sys2Proof.Machine.execCsum fin s
  | .enc cmd pl => Sys2Proof.Machine.execEnc cmd pl s
  | .val fin => Sys2Proof.Machine.execVal fin s
  | .xco2 fin => Sys2Proof.Machine.execXco2 fin s
  | .xct fin => Sys2Proof.Machine.execXct fin s
  | .beginExchange cmd pl => Sys2Proof.Machine.execBegin cmd pl s
  | .pwr => Sys2Proof.Machine.execPwr s
  | .prd => Sys2Proof.Machine.execPrd s
  | .frameReadCo2 => Sys2Proof.Machine.execFrameReadCo2 s
  | .frameReadCo2Temp pl => Sys2Proof.Machine.execFrameReadCo2Temp pl s
  | .frameGetFirmware pl => Sys2Proof.Machine.execFrameGetFirmware pl s
  | .frameSelfCalibration pl => Sys2Proof.Machine.execFrameSelfCalibration pl s

end Sys2Proof.Machine
end

