-- ==== Sys2Proof/Machine/Step.lean ====
section
/-! DEFINITION. One step: the block takes the host's next event and performs it. The block has no program
counter and fetches nothing (10_state.md R22): operations arrive from the host with their operands. -/

namespace Sys2Proof.Machine

/-- One step (00_scope.md R6, R14). With no event the host has not acted, and the block has no step of its
own: nothing changes (70_reset_and_hazards.md R205; log 9). -/
def step (s : State) : Host.Outcome State Fault Refusal :=
  match s.events with
  | [] => .next s
  | .reset :: rest => .next (State.resetEvent { s with events := rest })
  | .operation t :: rest =>
    match decodePorts s.cfg t with
    | .ok i => exec i { s with events := rest }
    | .error e => .refused (.undecodable e)

/-- The state whose next step performs the transaction of a table word (log 9). -/
def State.withFetchWord (s : State) (nbits w : Nat) : State :=
  { s with events := .operation (tableTransaction nbits w) :: s.events }

end Sys2Proof.Machine
end

