-- ==== Sys2Proof/Machine/Handle.lean ====
section
/-! DEFINITION. The host at the block's boundary: the capability-typed sensor handle and its composite
operations (43_host_boundary.md). It is no part of the block's state (10_state.md R21): it holds one block
and drives it through `exec`, one block operation a call (R168, D26; log 14). -/

namespace Sys2Proof.Machine

/-- The handle's composite operations (R162, R163, R164). -/
inductive Composite where
  | readCo2
  | readCo2Temp
  | upgrade
  deriving DecidableEq, Repr

/-- The dialect a handle is typed with (R166). -/
inductive Dialect where
  | base
  | extended
  deriving DecidableEq, Repr

/-- `HIdle`, `HWrite(k)` and `HRead(k)` (R168). -/
inductive HandlePhase where
  | idle
  | write (k : Composite)
  | read (k : Composite)
  deriving DecidableEq, Repr

/-- A sensor handle with the block it owns (R160). -/
structure Handle where
  dialect : Dialect
  phase : HandlePhase
  block : State
  deriving DecidableEq, Repr

/-- The host's own parameters (R5): the payloads of the two commands without a layout, which `BEGIN` holds to
`PayloadValid` (R134, R163), `FwVersionOf` (R164, D27), and `FW_EXTENDED_MIN` with the source's value as its
default (log 13). -/
structure HostParams where
  payloadReadCo2Temp : Payload
  payloadGetFirmware : Payload
  fwVersionOf : Frame → Nat
  fwExtendedMin : Nat := Config.fwExtendedMin

/-- The handle's errors: every block error unchanged, and exactly two of its own (R169). -/
inductive HandleError where
  | block (e : BlockError)
  | unsupportedFirmware
  | usageError
  deriving DecidableEq, Repr

/-- What a call of a composite operation returns. -/
inductive HandleResult where
  | inProgress
  | co2 (v : BitVec 16)
  | co2Temp (v t : BitVec 16)
  | upgraded
  | err (e : HandleError)
  deriving DecidableEq, Repr

/-- Why a call has no meaning. -/
inductive HandleRefusal where
  /-- The composite is not an operation of the handle's dialect, which a static type rules out (R166). Safe. -/
  | notOfDialect
  /-- The block refused the operation (R185). Safe. -/
  | block (r : Refusal)
  /-- The block's result is none the operation has; no call reaches it. Safe. -/
  | unexpectedResult
  deriving DecidableEq, Repr

/-- Which operations a dialect exposes (R166). -/
def Composite.availableOn : Composite → Dialect → Bool
  | .readCo2, _ => true
  | .readCo2Temp, .base => false
  | .readCo2Temp, .extended => true
  | .upgrade, .base => true
  | .upgrade, .extended => false

/-- The operation that starts composite `k`: `BEGIN(cmd_k, pl_k)`, issued as the frame command it carries
(R162, R163, R164, R168). -/
def Composite.startInstr (hp : HostParams) : Composite → Instr
  | .readCo2 => .frameReadCo2
  | .readCo2Temp => .frameReadCo2Temp hp.payloadReadCo2Temp
  | .upgrade => .frameGetFirmware hp.payloadGetFirmware

/-- The outcome of a call: the handle after it and what it returns. -/
abbrev HandleOutcome := Host.Outcome (Handle × HandleResult) Fault HandleRefusal

/-- Issue one operation to a block and go on with the state it leaves. -/
def issue (i : Instr) (s : State) (k : State → HandleOutcome) : HandleOutcome :=
  match exec i s with
  | .next t => k t
  | .fault r => .fault r
  | .refused r => .refused (.block r)

/-- `Finish_k(f)`, from the state `s` that returned `READY(f)` (R162, R163, R164). -/
def Handle.finish (hp : HostParams) (k : Composite) (h : Handle) (f : Frame) (s : State) : HandleOutcome :=
  match k with
  | .readCo2 =>
    issue (.xco2 f) s fun t =>
      match t.result with
      | some (.okCo2 v) => .next ({ h with phase := .idle, block := t }, .co2 v)
      | _ => .refused .unexpectedResult
  | .readCo2Temp =>
    issue (.xct f) s fun t =>
      match t.result with
      | some (.okCo2Temp v c) => .next ({ h with phase := .idle, block := t }, .co2Temp v c)
      | _ => .refused .unexpectedResult
  | .upgrade =>
    if hp.fwExtendedMin ≤ hp.fwVersionOf f then
      .next ({ dialect := .extended, phase := .idle, block := s }, .upgraded)
    else .next ({ h with phase := .idle, block := s }, .err .unsupportedFirmware)

/-- One `PWR` of the write phase (R168). -/
def Handle.pollWrite (k : Composite) (h : Handle) : HandleOutcome :=
  issue .pwr h.block fun s =>
    match s.result with
    | some .inProgress => .next ({ h with block := s }, .inProgress)
    | some .complete => .next ({ h with phase := .read k, block := s }, .inProgress)
    | some (.error e) => .next ({ h with phase := .idle, block := s }, .err (.block e))
    | _ => .refused .unexpectedResult

/-- One `PRD` of the read phase (R168). -/
def Handle.pollRead (hp : HostParams) (k : Composite) (h : Handle) : HandleOutcome :=
  issue .prd h.block fun s =>
    match s.result with
    | some .inProgress => .next ({ h with block := s }, .inProgress)
    | some (.ready f) => Handle.finish hp k h f s
    | some (.error e) => .next ({ h with phase := .idle, block := s }, .err (.block e))
    | _ => .refused .unexpectedResult

/-- One call of composite `k`: exactly one step of the handle's machine (R168, R165). -/
def Handle.call (hp : HostParams) (k : Composite) (h : Handle) : HandleOutcome :=
  if k.availableOn h.dialect = false then .refused .notOfDialect
  else
    match h.phase with
    | .idle =>
      issue (k.startInstr hp) h.block fun s => .next ({ h with phase := .write k, block := s }, .inProgress)
    | .write j => if j = k then Handle.pollWrite k h else .next (h, .err .usageError)
    | .read j => if j = k then Handle.pollRead hp k h else .next (h, .err .usageError)

/-- Creation: the caller gives a configuration and a transport (R167, R200, R204). The transport goes on where
it stands: its free draws are numbered from the attempts already made on it (log 8). -/
def Handle.create (cfg : Params) (tr : Transport) : Handle :=
  { dialect := .base
    phase := .idle
    block := (State.resetWith cfg).attach tr }

/-- Release: the transport goes back to the caller as it stands, with any bytes still in it and with the count
of attempts made on it, so that a later handle on it never sees a free draw again (R167, R203, D19; log 8). -/
def Handle.release (h : Handle) : Transport := h.block.transport

end Sys2Proof.Machine
end

