-- ==== Sys2Proof/Safety.lean ====
section
/-! DEFINITION. The terms claims use: the invariant of 10_state.md rule R30, a run that never faults, an
operation issued several times in a row, and what a poll makes of an assembled frame. -/

namespace Sys2Proof.Machine

/-- First case of R30: no exchange in progress. -/
abbrev State.IdleShape (s : State) : Prop := s.phase = .idle ∧ s.txCount = 0 ∧ s.rxBuf = []

/-- Second case of R30: a request partly sent. -/
abbrev State.WritingShape (s : State) : Prop :=
  s.phase = .writing ∧ s.txCount.toNat ≤ 8 ∧ s.rxBuf = []

/-- Third case of R30: a response partly received. -/
abbrev State.ReadingShape (s : State) : Prop :=
  s.phase = .reading ∧ s.txCount = 9 ∧ s.rxBuf.length ≤ 8

/-- The invariant of R30; its cases exclude one another by their phase. -/
abbrev State.Inv (s : State) : Prop := s.IdleShape ∨ s.WritingShape ∨ s.ReadingShape

/-- No run from the state, of whatever length, ends in a fault. -/
def NeverFaults (s : State) : Prop := ∀ n r, Sys2Proof.core.run n s ≠ Host.Outcome.fault r

/-- A sequence of operations, stopping at the first fault or refusal. -/
def execList : List Instr → State → Host.Outcome State Fault Refusal
  | [], s => .next s
  | i :: is, s =>
    match exec i s with
    | .next t => execList is t
    | .fault r => .fault r
    | .refused r => .refused r

/-- Change the next state of an outcome; a fault or a refusal stays. -/
def mapNext (g : State → State) : Host.Outcome State Fault Refusal → Host.Outcome State Fault Refusal
  | .next s => .next (g s)
  | .fault r => .fault r
  | .refused r => .refused r

/-- The operations that start an exchange: `BEGIN` and the frame commands. -/
def startsExchange : Instr → Bool
  | .csum _ => false
  | .enc _ _ => false
  | .val _ => false
  | .xco2 _ => false
  | .xct _ => false
  | .beginExchange _ _ => true
  | .pwr => false
  | .prd => false
  | .frameReadCo2 => true
  | .frameReadCo2Temp _ => true
  | .frameGetFirmware _ => true
  | .frameSelfCalibration _ => true

/-- The frame codec operations (R122). -/
def isCodec : Instr → Bool
  | .csum _ => true
  | .enc _ _ => true
  | .val _ => true
  | .xco2 _ => true
  | .xct _ => true
  | .beginExchange _ _ => false
  | .pwr => false
  | .prd => false
  | .frameReadCo2 => false
  | .frameReadCo2Temp _ => false
  | .frameGetFirmware _ => false
  | .frameSelfCalibration _ => false

/-- The frame an operation validates, if it validates one: the operand of `VAL`, or the 9 bytes that a `PRD`
in `READING` completes (R182). -/
def Validates (i : Instr) (s : State) (f : Frame) : Prop :=
  i = .val f ∨
    (i = .prd ∧ s.phase = .reading ∧ ∃ b, s.nextReadAnswer = .got b ∧ s.rxBuf ++ [b] = f.toList)

/-- The byte a read answer gives, if it gives one. -/
def gotByte : ReadAnswer → Option Byte
  | .got b => some b
  | .wouldBlock => none
  | .tErr _ => none

/-- The configured constants are the source's (R5). -/
abbrev HasSourceValues (cfg : Params) : Prop :=
  cfg.startByte = 0xFF ∧ cfg.sensorIndex = 0x01 ∧ cfg.cmdReadCo2 = 0x86 ∧ cfg.tempOffset = 40

/-- An entry of the enumeration names the code and admits the payload (R64, R65). -/
def AdmitsByName (cfg : Params) (code : CommandCode) (pl : Payload) : Prop :=
  ∃ e ∈ cfg.commands, e.code = code ∧ ∃ sh ∈ e.shapes, shapeAdmits sh pl = true

/-- A frame command other than `FRAME.READ_CO2`, with the OPEN code it carries (R64). -/
def CarriesCode (i : Instr) (code : CommandCode) (pl : Payload) : Prop :=
  (i = .frameReadCo2Temp pl ∧ code = .readCo2Temp) ∨
    (i = .frameGetFirmware pl ∧ code = .getFirmware) ∨
    (i = .frameSelfCalibration pl ∧ code = .selfCalibration)

/-- Exchange the error values of a transport for others. -/
def mapErrorOfWrite (g : TransportErrorT → TransportErrorT) : WriteAnswer → WriteAnswer
  | .transferred => .transferred
  | .wouldBlock => .wouldBlock
  | .tErr e => .tErr (g e)

/-- Exchange the error values of a transport for others. -/
def mapErrorOfRead (g : TransportErrorT → TransportErrorT) : ReadAnswer → ReadAnswer
  | .got b => .got b
  | .wouldBlock => .wouldBlock
  | .tErr e => .tErr (g e)

/-- Exchange the error value of a result for another. -/
def mapErrorOfResult (g : TransportErrorT → TransportErrorT) : Result → Result
  | .ok => .ok
  | .okByte b => .okByte b
  | .okFrame f => .okFrame f
  | .okCo2 v => .okCo2 v
  | .okCo2Temp v t => .okCo2Temp v t
  | .inProgress => .inProgress
  | .complete => .complete
  | .ready f => .ready f
  | .error (.transport e) => .error (.transport (g e))
  | .error .unexpectedStartByte => .error .unexpectedStartByte
  | .error (.checksumMismatch x a) => .error (.checksumMismatch x a)

/-- Exchange every error value in a state for another. -/
def State.mapErrors (g : TransportErrorT → TransportErrorT) (s : State) : State :=
  { s with
    result := s.result.map (mapErrorOfResult g)
    writeAnswers := s.writeAnswers.map (mapErrorOfWrite g)
    readAnswers := s.readAnswers.map (mapErrorOfRead g) }

/-- The handle and its block agree: an idle handle owns an idle block, and a handle in an exchange owns a
block in the same phase of it (R168, R30). -/
def Handle.Agrees (h : Handle) : Prop :=
  match h.phase with
  | .idle => h.block.IdleShape
  | .write k => h.block.WritingShape ∧ k.availableOn h.dialect = true
  | .read k => h.block.ReadingShape ∧ k.availableOn h.dialect = true

/-- The same composite called `n` times in a row, with what the last call returned; `none` before the first. -/
def Handle.calls (hp : HostParams) (k : Composite) :
    Nat → Handle → Option HandleResult →
      Host.Outcome (Handle × Option HandleResult) Fault HandleRefusal
  | 0, h, r => .next (h, r)
  | n + 1, h, _ =>
    match Handle.call hp k h with
    | .next (h', r) => Handle.calls hp k n h' (some r)
    | .fault r => .fault r
    | .refused r => .refused r

end Sys2Proof.Machine
end

