-- ==== Sys2Proof/Certificates/Slice0/Obligations.lean ====
section
/-! DEFINITION. The statements for the provers. Each docstring names the rule or the section it rests on. -/

open Sys2Proof Sys2Proof.Machine

/-! ### Reset and the invariant -/

/-- R201, under every configuration and whatever `tx_frame` holds: an idle, empty block with no result on the
port, whose first `PRD` and first `PWR` answer at once, without a transport attempt or a look at `tx_frame`. -/
def Obligations.ResetLeavesTheBlockIdle : Prop :=
  ∀ (cfg : Params) (f : Frame),
    let s := { State.resetWith cfg with txFrame := f }
    s.phase = .idle ∧ s.txCount = 0 ∧ s.rxBuf = [] ∧ s.result = none ∧
    exec .prd s = .next { s with result := some .inProgress } ∧
    exec .pwr s = .next { s with result := some .complete }

/-- The invariant of R30 holds right after reset, under every configuration, and so at `State.reset`. -/
def Obligations.ResetMeetsInvariant : Prop :=
  (∀ cfg : Params, (State.resetWith cfg).Inv) ∧ State.reset.Inv

/-- R30: between any two operations the state has exactly one of the three shapes. From a state that has one,
every step that answers a next state leaves one; no state has two; and a codec operation does not touch the
four registers. -/
def Obligations.StepKeepsInvariant : Prop :=
  (∀ s t : State, s.Inv → step s = .next t → t.Inv) ∧
  (∀ s : State, ¬(s.IdleShape ∧ s.WritingShape) ∧ ¬(s.IdleShape ∧ s.ReadingShape) ∧
    ¬(s.WritingShape ∧ s.ReadingShape)) ∧
  (∀ (i : Instr) (s t : State), isCodec i = true → exec i s = .next t →
    t.phase = s.phase ∧ t.txFrame = s.txFrame ∧ t.txCount = s.txCount ∧ t.rxBuf = s.rxBuf)

/-- R22, R26 and R27 together: `tx_count` never indexes past `tx_frame` and `rx_buf` never holds more than 9
bytes, so no run from a state with the invariant ever faults. -/
def Obligations.InvariantRunsNeverFault : Prop := ∀ s : State, s.Inv → NeverFaults s

/-- From a state with the invariant, an operation whose operands the source admits answers a next state,
whichever row of the opcode table it is (R104, R134 "always succeeds"; R119; R132). What a frame command does
is the model's reading (log 5, log 6). -/
def Obligations.EveryAdmittedOperationCompletes : Prop :=
  ∀ (i : Instr) (s : State), s.Inv → i.operandProblem s.cfg = none → ∃ t, exec i s = .next t

/-- R69 (d), R105, R134, R185: an operation is refused exactly when its operands are outside the OPEN
predicates, under the name of the predicate that fails first. That a frame command is checked as `BEGIN` is the
model's reading (log 5, log 6). -/
def Obligations.OnlyInvalidRequestsAreRefused : Prop :=
  ∀ (i : Instr) (s : State) (r : Refusal),
    exec i s = .refused r ↔
      ((r = .commandNotInEnumeration ∧ i.operandProblem s.cfg = some .commandNotInEnumeration) ∨
       (r = .payloadShapeInvalid ∧ i.operandProblem s.cfg = some .payloadShapeInvalid))

/-! ### The frame codec -/

/-- R100, R103: `CSUM` returns `(0x100 - (f[1]+…+f[7]) mod 256) mod 256` and changes nothing but the port. -/
def Obligations.ChecksumOperationResult : Prop :=
  ∀ (f : Frame) (s : State), ∃ b : Byte,
    b.toNat = (0x100 - (f[1].toNat + f[2].toNat + f[3].toNat + f[4].toNat + f[5].toNat + f[6].toNat +
      f[7].toNat) % 256) % 256 ∧
    exec (.csum f) s = .next { s with result := some (.okByte b) }

/-- R105: the two refusals of `ENC`, and otherwise the nine bytes of the frame it returns. -/
def Obligations.EncodeOperationResult : Prop :=
  ∀ (cmd : Byte) (pl : Payload) (s : State),
    (commandValid s.cfg cmd = false → exec (.enc cmd pl) s = .refused .commandNotInEnumeration) ∧
    (commandValid s.cfg cmd = true → payloadValid s.cfg cmd pl = false →
      exec (.enc cmd pl) s = .refused .payloadShapeInvalid) ∧
    (commandValid s.cfg cmd = true → payloadValid s.cfg cmd pl = true →
      ∃ f : Frame, f[0] = s.cfg.startByte ∧ f[1] = s.cfg.sensorIndex ∧ f[2] = cmd ∧
        (∀ (k : Nat) (_ : k < 5), f[3 + k] = pl[k]) ∧ f[8] = checksum f ∧
        exec (.enc cmd pl) s = .next { s with result := some (.okFrame f) })

/-- R107, R108: `VAL` checks the start byte first, then byte 8 against the checksum of bytes 1 to 7, and on
success returns its operand unchanged. -/
def Obligations.ValidateOperationResult : Prop :=
  ∀ (f : Frame) (s : State),
    (f[0] ≠ s.cfg.startByte → exec (.val f) s = .next { s with result := some (.error .unexpectedStartByte) }) ∧
    (f[0] = s.cfg.startByte → f[8] ≠ checksum f →
      exec (.val f) s = .next { s with result := some (.error (.checksumMismatch (checksum f) f[8])) }) ∧
    (f[0] = s.cfg.startByte → f[8] = checksum f →
      exec (.val f) s = .next { s with result := some (.okFrame f) })

/-- R111: `XCO2` returns `f[2]*256 + f[3]` of any nine bytes. -/
def Obligations.ExtractCo2Result : Prop :=
  ∀ (f : Frame) (s : State), ∃ v : BitVec 16, v.toNat = f[2].toNat * 256 + f[3].toNat ∧
    exec (.xco2 f) s = .next { s with result := some (.okCo2 v) }

/-- R113: `XCT` returns the CO₂ value and `f[4] - TEMP_OFFSET`, which is `f[4] - 40` under the source's value,
with the byte read unsigned, of any nine bytes. -/
def Obligations.ExtractCo2TempResult : Prop :=
  ∀ (f : Frame) (s : State), ∃ v t : BitVec 16,
    v.toNat = f[2].toNat * 256 + f[3].toNat ∧
    t.toInt = (f[4].toNat : Int) - s.cfg.tempOffset.toNat ∧
    (s.cfg.tempOffset = 40 → t.toInt = (f[4].toNat : Int) - 40) ∧
    exec (.xct f) s = .next { s with result := some (.okCo2Temp v t) }

/-- R101: byte 8 is the checksum exactly when bytes 1 to 8 sum to 0 modulo 256. -/
def Obligations.ChecksumLaw : Prop :=
  ∀ f : Frame, f[8] = checksum f ↔
    (f[1].toNat + f[2].toNat + f[3].toNat + f[4].toNat + f[5].toNat + f[6].toNat + f[7].toNat +
      f[8].toNat) % 256 = 0

/-- R114: what `ENC` returns, `VAL` accepts and returns identically, in any state of the same machine, that is
with the same `START_BYTE`. -/
def Obligations.EncodeThenValidateRoundTrip : Prop :=
  ∀ (cmd : Byte) (pl : Payload) (s u : State), u.cfg.startByte = s.cfg.startByte →
    commandValid s.cfg cmd = true → payloadValid s.cfg cmd pl = true →
    ∃ f : Frame, exec (.enc cmd pl) s = .next { s with result := some (.okFrame f) } ∧
      exec (.val f) u = .next { u with result := some (.okFrame f) }

/-- R115: flipping any one bit of bytes 1 to 8 of a frame that passes `VAL` gives `ERR_CHECKSUM`. -/
def Obligations.SingleBitFlipIsDetected : Prop :=
  ∀ (f : Frame) (s : State) (i k : Nat) (_ : i < 9), 1 ≤ i → k < 8 →
    exec (.val f) s = .next { s with result := some (.okFrame f) } →
    let g := f.set i (f[i] ^^^ (1#8 <<< k))
    exec (.val g) s = .next { s with result := some (.error (.checksumMismatch (checksum g) g[8])) }

/-- R116: flipping any bit of byte 0 of a frame that passes `VAL` gives `ERR_START`. -/
def Obligations.StartByteFlipIsDetected : Prop :=
  ∀ (f : Frame) (s : State) (k : Nat), k < 8 →
    exec (.val f) s = .next { s with result := some (.okFrame f) } →
    exec (.val (f.set 0 (f[0] ^^^ (1#8 <<< k)))) s =
      .next { s with result := some (.error .unexpectedStartByte) }

/-- R117: changes in bytes 1 to 8 that leave their sum modulo 256 as it was pass `VAL` undetected. -/
def Obligations.CompensatingChangesPass : Prop :=
  ∀ (f g : Frame) (s : State),
    exec (.val f) s = .next { s with result := some (.okFrame f) } → g[0] = f[0] →
    (g[1].toNat + g[2].toNat + g[3].toNat + g[4].toNat + g[5].toNat + g[6].toNat + g[7].toNat +
      g[8].toNat) % 256 =
      (f[1].toNat + f[2].toNat + f[3].toNat + f[4].toNat + f[5].toNat + f[6].toNat + f[7].toNat +
        f[8].toNat) % 256 →
    exec (.val g) s = .next { s with result := some (.okFrame g) }

/-- R62, R109: `VAL` accepts exactly the well-formed frames, in both forms of R62; nothing else decides. -/
def Obligations.ValidateAcceptsExactlyWellFormed : Prop :=
  ∀ (f : Frame) (s : State),
    (exec (.val f) s = .next { s with result := some (.okFrame f) } ↔ frameWellFormed s.cfg f = true) ∧
    (frameWellFormed s.cfg f = true ↔ f[0] = s.cfg.startByte ∧ f[8] = checksum f) ∧
    (frameWellFormed s.cfg f = true ↔
      f[0] = s.cfg.startByte ∧ (f[1].toNat + f[2].toNat + f[3].toNat + f[4].toNat + f[5].toNat + f[6].toNat +
        f[7].toNat + f[8].toNat) % 256 = 0)

/-- R121: neither byte 0 nor byte 8 enters the checksum. -/
def Obligations.ChecksumIgnoresFirstAndLastByte : Prop :=
  ∀ (f : Frame) (a b : Byte) (s : State), exec (.csum ((f.set 0 a).set 8 b)) s = exec (.csum f) s

/-- R122: a codec operation writes the result port and nothing else, and what it puts there does not depend
on the transceiver, the transport or any history, so it may be issued in any phase. -/
def Obligations.CodecOperationsAreStateless : Prop :=
  ∀ (i : Instr) (s u t : State), isCodec i = true → s.cfg = u.cfg → exec i s = .next t →
    ∃ r : Result, t = { s with result := some r } ∧ exec i u = .next { u with result := some r }

/-! ### The transceiver -/

/-- R134: the two refusals of `BEGIN`; otherwise, in every phase, the frame is loaded, the counters emptied,
the phase is `WRITING`, the result `OK`, and all else as before: no attempt, nothing drained. -/
def Obligations.BeginExchangeResult : Prop :=
  ∀ (cmd : Byte) (pl : Payload) (s : State),
    (commandValid s.cfg cmd = false → exec (.beginExchange cmd pl) s = .refused .commandNotInEnumeration) ∧
    (commandValid s.cfg cmd = true → payloadValid s.cfg cmd pl = false →
      exec (.beginExchange cmd pl) s = .refused .payloadShapeInvalid) ∧
    (commandValid s.cfg cmd = true → payloadValid s.cfg cmd pl = true →
      ∃ f : Frame, f[0] = s.cfg.startByte ∧ f[1] = s.cfg.sensorIndex ∧ f[2] = cmd ∧
        (∀ (k : Nat) (_ : k < 5), f[3 + k] = pl[k]) ∧ f[8] = checksum f ∧
        exec (.beginExchange cmd pl) s =
          .next { s with phase := .writing, txFrame := f, txCount := 0, rxBuf := [], result := some .ok })

/-- R136: `POLL_WRITE`, clause by clause, with all it leaves unchanged. -/
def Obligations.PollWriteResult : Prop :=
  ∀ s : State,
    (s.phase ≠ .writing → exec .pwr s = .next { s with result := some .complete }) ∧
    (s.phase = .writing → ∀ _ : s.txCount.toNat < 9,
      (s.nextWriteAnswer = .wouldBlock → exec .pwr s = .next
        { s with writeAnswers := s.writeAnswers.tail, attempts := s.attempts + 1,
                 result := some .inProgress }) ∧
      (∀ e, s.nextWriteAnswer = .tErr e → exec .pwr s = .next
        { s with writeAnswers := s.writeAnswers.tail, attempts := s.attempts + 1,
                 phase := .idle, txCount := 0, rxBuf := [], result := some (.error (.transport e)) }) ∧
      (s.nextWriteAnswer = .transferred → exec .pwr s = .next
        { s with writeAnswers := s.writeAnswers.tail, attempts := s.attempts + 1,
                 outHistory := s.outHistory ++ [s.txFrame[s.txCount.toNat]],
                 txCount := s.txCount + 1,
                 phase := if s.txCount = 8 then .reading else .writing,
                 result := some (if s.txCount = 8 then .complete else .inProgress) }))

/-- R138: `POLL_READ`, clause by clause, with all it leaves unchanged. -/
def Obligations.PollReadResult : Prop :=
  ∀ s : State,
    (s.phase ≠ .reading → exec .prd s = .next { s with result := some .inProgress }) ∧
    (s.phase = .reading →
      (s.nextReadAnswer = .wouldBlock → exec .prd s = .next
        { s with readAnswers := s.readAnswers.tail, attempts := s.attempts + 1,
                 result := some .inProgress }) ∧
      (∀ e, s.nextReadAnswer = .tErr e → exec .prd s = .next
        { s with readAnswers := s.readAnswers.tail, attempts := s.attempts + 1,
                 phase := .idle, txCount := 0, rxBuf := [], result := some (.error (.transport e)) }) ∧
      (∀ b, s.nextReadAnswer = .got b →
        (s.rxBuf.length < 8 → exec .prd s = .next
          { s with readAnswers := s.readAnswers.tail, attempts := s.attempts + 1,
                   inHistory := s.inHistory ++ [b], rxBuf := s.rxBuf ++ [b],
                   result := some .inProgress }) ∧
        (∀ f : Frame, s.rxBuf ++ [b] = f.toList → exec .prd s = .next
          { s with readAnswers := s.readAnswers.tail, attempts := s.attempts + 1,
                   inHistory := s.inHistory ++ [b], phase := .idle, txCount := 0, rxBuf := [],
                   result := some
                    (if f[0] ≠ s.cfg.startByte then .error .unexpectedStartByte
                     else if f[8] ≠ checksum f then .error (.checksumMismatch (checksum f) f[8])
                     else .ready f) })))

/-- R139: a poll whose attempt would block returns `IN_PROGRESS` and leaves every register unchanged, with no
byte lost or duplicated on the wire. -/
def Obligations.WouldBlockPreservesState : Prop :=
  ∀ (i : Instr) (s : State),
    ((i = .pwr ∧ s.phase = .writing ∧ s.txCount.toNat < 9 ∧ s.nextWriteAnswer = .wouldBlock) ∨
     (i = .prd ∧ s.phase = .reading ∧ s.nextReadAnswer = .wouldBlock)) →
    ∃ t, exec i s = .next t ∧ t.result = some .inProgress ∧ t.phase = s.phase ∧ t.txFrame = s.txFrame ∧
      t.txCount = s.txCount ∧ t.rxBuf = s.rxBuf ∧ t.outHistory = s.outHistory ∧ t.inHistory = s.inHistory

/-- R140: after a `PRD` that completed or failed the state is idle, and until an operation starts a new
exchange every `PRD` returns `IN_PROGRESS` without an attempt, whatever else is issued in between. -/
def Obligations.NoDoubleConsumption : Prop :=
  ∀ (s t u : State) (ops : List Instr),
    exec .prd s = .next t →
    ((∃ f, t.result = some (.ready f)) ∨ ∃ e, t.result = some (.error e)) →
    (∀ i ∈ ops, startsExchange i = false) → execList ops t = .next u →
    t.IdleShape ∧ u.IdleShape ∧ u.attempts = t.attempts ∧ u.inHistory = t.inHistory ∧
      exec .prd u = .next { u with result := some .inProgress }

/-- R141 for `PRD`: bytes with any number of `WouldBlock` answers between them end, in the call that
receives the ninth, in the result that `VAL` gives for those nine bytes; every earlier call is in progress. -/
def Obligations.ReadIsResilientToStalls : Prop :=
  ∀ (s : State) (answers rest : List ReadAnswer) (f : Frame) (b : Byte),
    s.phase = .reading → s.rxBuf = [] → s.readAnswers = answers ++ .got b :: rest →
    (∀ e, ReadAnswer.tErr e ∉ answers) → answers.filterMap gotByte ++ [b] = f.toList →
    (∀ n, n < answers.length → ∃ t, execList (List.replicate (n + 1) .prd) s = .next t ∧
      t.result = some .inProgress ∧ t.phase = .reading) ∧
    ∃ t, execList (List.replicate (answers.length + 1) .prd) s = .next t ∧ t.IdleShape ∧
      t.readAnswers = rest ∧ t.inHistory = s.inHistory ++ f.toList ∧ t.txFrame = s.txFrame ∧
      t.result = some
        (if f[0] ≠ s.cfg.startByte then .error .unexpectedStartByte
         else if f[8] ≠ checksum f then .error (.checksumMismatch (checksum f) f[8])
         else .ready f)

/-- R141 for `PWR`, with R42: whatever `WouldBlock` answers lie between them, nine accepted writes put
`tx_frame[0..8]` on the wire in index order, and only the last one completes. -/
def Obligations.WriteIsResilientToStalls : Prop :=
  ∀ (s : State) (answers rest : List WriteAnswer),
    s.phase = .writing → s.txCount = 0 → s.writeAnswers = answers ++ .transferred :: rest →
    (∀ e, WriteAnswer.tErr e ∉ answers) → answers.count .transferred = 8 →
    (∀ n, n < answers.length → ∃ t, execList (List.replicate (n + 1) .pwr) s = .next t ∧
      t.result = some .inProgress ∧ t.phase = .writing) ∧
    ∃ t, execList (List.replicate (answers.length + 1) .pwr) s = .next t ∧ t.phase = .reading ∧
      t.txCount = 9 ∧ t.rxBuf = s.rxBuf ∧ t.writeAnswers = rest ∧ t.result = some .complete ∧
      t.outHistory = s.outHistory ++ s.txFrame.toList

/-- R48, R132, R49: an operation makes at most one transport attempt, only `PWR` in `WRITING` and `PRD` in
`READING` make one, and a history grows by exactly the byte that attempt moved. -/
def Obligations.AtMostOneAttemptPerOperation : Prop :=
  ∀ (i : Instr) (s t : State), exec i s = .next t →
    (¬(i = .pwr ∧ s.phase = .writing) ∧ ¬(i = .prd ∧ s.phase = .reading) ∧
      t.attempts = s.attempts ∧ t.outHistory = s.outHistory ∧ t.inHistory = s.inHistory ∧
      t.writeAnswers = s.writeAnswers ∧ t.readAnswers = s.readAnswers) ∨
    (i = .pwr ∧ s.phase = .writing ∧ t.attempts = s.attempts + 1 ∧ t.inHistory = s.inHistory ∧
      t.readAnswers = s.readAnswers ∧
      ((s.nextWriteAnswer = .transferred ∧
          ∃ b, s.txFrame[s.txCount.toNat]? = some b ∧ t.outHistory = s.outHistory ++ [b]) ∨
       (s.nextWriteAnswer ≠ .transferred ∧ t.outHistory = s.outHistory))) ∨
    (i = .prd ∧ s.phase = .reading ∧ t.attempts = s.attempts + 1 ∧ t.outHistory = s.outHistory ∧
      t.writeAnswers = s.writeAnswers ∧ t.inHistory = s.inHistory ++ (gotByte s.nextReadAnswer).toList)

/-- R145: the `phase` after an operation. A start gives `WRITING` from any phase, the ninth accepted byte gives
`READING`, the ninth byte received and a transport error give `IDLE`; all else leaves it as it is. That a frame
command is a start is the model's reading (log 6). -/
def Obligations.PhaseTransitionsAreTheListedOnes : Prop :=
  ∀ (i : Instr) (s t : State), exec i s = .next t →
    t.phase =
      if startsExchange i then .writing
      else if i = .pwr ∧ s.phase = .writing then
        match s.nextWriteAnswer with
        | .transferred => if s.txCount = 8 then .reading else .writing
        | .wouldBlock => .writing
        | .tErr _ => .idle
      else if i = .prd ∧ s.phase = .reading then
        match s.nextReadAnswer with
        | .got _ => if s.rxBuf.length < 8 then .reading else .idle
        | .wouldBlock => .reading
        | .tErr _ => .idle
      else s.phase

/-- R25: only an operation that starts an exchange writes `tx_frame`, and only `PWR` in `WRITING` reads it,
at index `tx_count`: two states that differ in `tx_frame` elsewhere go on alike. -/
def Obligations.TxFrameWrittenByStartReadByPollWrite : Prop :=
  (∀ (i : Instr) (s t : State), startsExchange i = false → exec i s = .next t → t.txFrame = s.txFrame) ∧
  (∀ (i : Instr) (s : State) (f : Frame),
    (i = .pwr → s.phase = .writing → f[s.txCount.toNat]? = s.txFrame[s.txCount.toNat]?) →
    mapNext (fun t => { t with txFrame := f }) (exec i { s with txFrame := f }) =
      mapNext (fun t => { t with txFrame := f }) (exec i s))

/-- R26: `tx_count` is set to 0 by a start or a return to idle, is one more after an accepted byte, and is
otherwise unchanged. -/
def Obligations.TxCountChangesOnlyAsStated : Prop :=
  ∀ (i : Instr) (s t : State), exec i s = .next t →
    t.txCount = s.txCount ∨
    (t.txCount = 0 ∧ (startsExchange i = true ∨ t.IdleShape)) ∨
    (i = .pwr ∧ s.phase = .writing ∧ s.nextWriteAnswer = .transferred ∧ t.txCount = s.txCount + 1)

/-- R27: `rx_buf` grows only by the byte a `PRD` in `READING` got, is emptied only by a start or a return to
idle, and is otherwise unchanged: no byte of it is overwritten or rewound. -/
def Obligations.RxBufIsAppendOnly : Prop :=
  ∀ (i : Instr) (s t : State), exec i s = .next t →
    t.rxBuf = s.rxBuf ∨
    (t.rxBuf = [] ∧ (startsExchange i = true ∨ t.IdleShape)) ∨
    (i = .prd ∧ s.phase = .reading ∧
      ∃ b, s.nextReadAnswer = .got b ∧ t.rxBuf = s.rxBuf ++ [b] ∧ t.rxBuf.length ≤ 8)

/-- No operation touches the configuration, the identity of the transport or the host's pending events
(R204, R167, R6 (1)). The identity and the queue are the model's own (log 8, log 9). -/
def Obligations.ConfigurationAndEventsAreUntouched : Prop :=
  ∀ (i : Instr) (s t : State), exec i s = .next t →
    t.cfg = s.cfg ∧ t.transportId = s.transportId ∧ t.events = s.events

/-- R23, R211: no status is sticky. Whatever result the last operation left on the port, any sequence of
operations goes on in the same way. -/
def Obligations.NoStatusIsSticky : Prop :=
  ∀ (ops : List Instr) (s : State) (r : Option Result), ops ≠ [] →
    execList ops { s with result := r } = execList ops s

/-- R181, R144, R180: `TransportError` is the result exactly when the operation's own attempt was answered
with an error; it carries that error unchanged and leaves the block idle. -/
def Obligations.TransportErrorIsPassedOn : Prop :=
  ∀ (i : Instr) (s t : State) (e : TransportErrorT), exec i s = .next t →
    ((t.result = some (.error (.transport e)) ↔
      ((i = .pwr ∧ s.phase = .writing ∧ s.nextWriteAnswer = .tErr e) ∨
       (i = .prd ∧ s.phase = .reading ∧ s.nextReadAnswer = .tErr e))) ∧
     (t.result = some (.error (.transport e)) → t.IdleShape))

/-- R182, R183: the two integrity errors are raised exactly on the frames that rule them out, with the
checksum values of R183. -/
def Obligations.IntegrityErrorsAreExact : Prop :=
  ∀ (i : Instr) (s t : State), exec i s = .next t →
    (t.result = some (.error .unexpectedStartByte) ↔ ∃ f, Validates i s f ∧ f[0] ≠ s.cfg.startByte) ∧
    (∀ x a, t.result = some (.error (.checksumMismatch x a)) ↔
      ∃ f, Validates i s f ∧ f[0] = s.cfg.startByte ∧ f[8] ≠ checksum f ∧ x = checksum f ∧ a = f[8])

/-- R146: a transceiver operation that returns an error leaves the block idle, and a `BEGIN` with an admitted
command succeeds at once. -/
def Obligations.ErrorsLeaveTheBlockReady : Prop :=
  ∀ (i : Instr) (s t : State) (e : BlockError), isCodec i = false → exec i s = .next t →
    t.result = some (.error e) →
    t.IdleShape ∧ ∀ cmd pl, commandValid s.cfg cmd = true → payloadValid s.cfg cmd pl = true →
      ∃ u, exec (.beginExchange cmd pl) t = .next u ∧ u.WritingShape ∧ u.result = some .ok

/-- R212: from idle, a response takes at least 1 + 9 + 9 operations. -/
def Obligations.AnExchangeTakesNineteenOperations : Prop :=
  ∀ (ops : List Instr) (s t : State) (f : Frame), s.IdleShape → (∀ g, s.result ≠ some (.ready g)) →
    execList ops s = .next t → t.result = some (.ready f) → 19 ≤ ops.length

/-! ### The frame commands -/

/-- `FRAME.READ_CO2` starts the exchange of `CMD_READ_CO2` with five zero bytes, whose request is the source's
example under the source's values (R64, R65; 95_test_vectors.md W1). That a frame command starts its exchange is
the model's reading (log 6). -/
def Obligations.ReadCo2CommandStartsItsExchange : Prop :=
  ∀ s : State, ∃ f : Frame,
    f[0] = s.cfg.startByte ∧ f[1] = s.cfg.sensorIndex ∧ f[2] = s.cfg.cmdReadCo2 ∧
    (∀ (k : Nat) (_ : k < 5), f[3 + k] = 0) ∧ f[8] = checksum f ∧
    (HasSourceValues s.cfg → f = #v[0xFF, 0x01, 0x86, 0, 0, 0, 0, 0, 0x79]) ∧
    exec .frameReadCo2 s = .next
      { s with phase := .writing, txFrame := f, txCount := 0, rxBuf := [], result := some .ok }

/-- Each of the four frame commands is `BEGIN` with its code, refusals and all: `CMD_READ_CO2` with the zero
payload, and for the three others the code the configuration gives, or where it gives none a byte of which
nothing is known (R64, R65, R134, R185). That a frame command starts its exchange is
the model's reading (log 5, log 6). -/
def Obligations.FrameCommandsAreBeginWithTheirCode : Prop :=
  (∀ s : State, exec .frameReadCo2 s = exec (.beginExchange s.cfg.cmdReadCo2 zeroPayload) s) ∧
  (∀ (s : State) (pl : Payload) (i : Instr) (code : CommandCode), CarriesCode i code pl →
    exec i s = exec (.beginExchange (codeValue s.cfg code) pl) s) ∧
  (∀ (cfg : Params) (c : Byte),
    (cfg.cmdReadCo2Temp = some c → codeValue cfg .readCo2Temp = c) ∧
    (cfg.cmdGetFirmware = some c → codeValue cfg .getFirmware = c) ∧
    (cfg.cmdSelfCalibration = some c → codeValue cfg .selfCalibration = c))

/-- A frame command that the enumeration names, with a payload admitted for it, starts its exchange, whether its
code is given or OPEN: byte 2 of the request is the code's value, of which nothing is known where it is OPEN
(R60, R64, R65). That it starts its exchange is the model's reading (log 5, log 6). -/
def Obligations.FrameCommandsWithOpenCodeStart : Prop :=
  ∀ (s : State) (pl : Payload) (i : Instr) (code : CommandCode),
    CarriesCode i code pl → AdmitsByName s.cfg code pl →
    ∃ f : Frame, f[0] = s.cfg.startByte ∧ f[1] = s.cfg.sensorIndex ∧ f[2] = codeValue s.cfg code ∧
      (∀ (k : Nat) (_ : k < 5), f[3 + k] = pl[k]) ∧ f[8] = checksum f ∧
      exec i s = .next { s with phase := .writing, txFrame := f, txCount := 0, rxBuf := [],
                                result := some .ok }

/-! ### Encoding, ports and the step -/

/-- Decoding the encoding of any encodable instruction gives it back, with every operand at every value, and
leaves what follows it (R66, R67; the byte layout is log 7). -/
def Obligations.DecodeOfEncodeIsIdentity : Prop :=
  ∀ (cfg : Params) (i : Instr) (rest : List Byte), i.Encodable cfg →
    ∃ bs, encode cfg i = some bs ∧ decode cfg (bs ++ rest) = .ok (i, rest)

/-- Four selector words of R66 and one word with operands, the line `BEGIN 0x86, Z` of 95_test_vectors.md, byte
by byte. That 0x86 selects a frame command and 0x42 is reserved, and the layout above the selector, are the
model's choice (log 7): R66 gives a 3-bit `op` and R69 (a) reserves none of its values. -/
def Obligations.SelectorWordsDecode : Prop :=
  decodeTableWord 8 0b000 = some (.csum #v[0, 0, 0, 0, 0, 0, 0, 0, 0]) ∧
  decodeTableWord 8 0b100 = some (.xct #v[0, 0, 0, 0, 0, 0, 0, 0, 0]) ∧
  decodeTableWord 8 0b110 = some .pwr ∧
  decodeTableWord 8 0b111 = some .prd ∧
  decodeTableWord 8 0x86 = some .frameReadCo2 ∧
  decodeTableWord 8 0x42 = none ∧
  decodeTableWord 56 0x00000000008605 = some (.beginExchange 0x86 #v[0, 0, 0, 0, 0])

/-- R67: an operation depends on no port, and on no byte of a port, that the rule does not list for it. -/
def Obligations.OperationsReadOnlyTheirPorts : Prop :=
  ∀ (cfg : Params) (t u : Transaction) (s : State), t.sel = u.sel → t.sel.toNat < 8 →
    (t.sel = 0b000 → ∀ (k : Nat) (_ : k < 9), 1 ≤ k → k ≤ 7 → t.fin[k] = u.fin[k]) →
    (t.sel = 0b010 → t.fin = u.fin) →
    (t.sel = 0b011 → t.fin[2] = u.fin[2] ∧ t.fin[3] = u.fin[3]) →
    (t.sel = 0b100 → t.fin[2] = u.fin[2] ∧ t.fin[3] = u.fin[3] ∧ t.fin[4] = u.fin[4]) →
    (t.sel = 0b001 ∨ t.sel = 0b101 → t.cmd = u.cmd ∧ t.pl = u.pl) →
    ∃ i j, decodePorts cfg t = .ok i ∧ decodePorts cfg u = .ok j ∧ exec i s = exec j s

/-- R45: on a packed port, byte `i` occupies bits `[8i+7 : 8i]`, and packing loses nothing. -/
def Obligations.PortPackingIsLossless : Prop :=
  (∀ (f : Frame) (k : Nat) (_ : k < 9), (packFrame f).extractLsb' (8 * k) 8 = f[k]) ∧
  (∀ (p : Payload) (k : Nat) (_ : k < 5), (packPayload p).extractLsb' (8 * k) 8 = p[k]) ∧
  (∀ f : Frame, unpackFrame (packFrame f) = f) ∧ (∀ p : Payload, unpackPayload (packPayload p) = p)

/-- R68: the code of every result an operation leaves on the port, for each operation the codes it can
return; 0b111 is never among them. That a frame command returns `OK`, as `BEGIN` does, is the model's reading
(log 6). -/
def Obligations.ResultCodesPerOperation : Prop :=
  ∀ (i : Instr) (s t : State), exec i s = .next t →
    ∃ r, t.result = some r ∧ r.code ≠ 0b111 ∧
      (i = .pwr → r.code = 0b001 ∨ r.code = 0b010 ∨ r.code = 0b100) ∧
      (i = .prd → r.code = 0b001 ∨ r.code = 0b011 ∨ r.code = 0b100 ∨ r.code = 0b101 ∨ r.code = 0b110) ∧
      ((∃ f, i = .val f) → r.code = 0b000 ∨ r.code = 0b101 ∨ r.code = 0b110) ∧
      (i ≠ .pwr → i ≠ .prd → (∀ f, i ≠ .val f) → r.code = 0b000)

/-- When the host's next event is a transaction whose 16 bytes decode to `i`, the step is `exec i`, with
that event gone from the queue and nothing else added (R6, R22, R66). -/
def Obligations.StepRunsTheDecodedInstruction : Prop :=
  ∀ (s : State) (tr : Transaction) (rest : List HostEvent) (i : Instr),
    s.events = .operation tr :: rest → decode s.cfg (transactionBytes tr) = .ok (i, []) →
    step s = exec i { s with events := rest }

/-- What `step` does when it runs no instruction: it waits for the host, it resets, or it refuses a
transaction that is no operation. The queue and the refusal are the model's (log 7, log 9, log 11). -/
def Obligations.StepWithoutAnInstruction : Prop :=
  ∀ s : State,
    (s.events = [] → step s = .next s) ∧
    (∀ rest, s.events = .reset :: rest →
      ∃ t, step s = .next t ∧ t.IdleShape ∧ t.result = none ∧ t.cfg = s.cfg ∧ t.events = rest ∧
        t.readAnswers = s.readAnswers ∧ t.writeAnswers = s.writeAnswers) ∧
    (∀ tr rest e, s.events = .operation tr :: rest → decode s.cfg (transactionBytes tr) = .error e →
      step s = .refused (.undecodable e))

/-! ### The handle at the host's boundary -/

/-- R165: starting another composite while one is exchanging is a usage error, and the handle and its block
stay as they are. -/
def Obligations.UsageErrorTouchesNothing : Prop :=
  ∀ (hp : HostParams) (h : Handle) (j k : Composite), j ≠ k → j.availableOn h.dialect = true →
    (h.phase = .write k ∨ h.phase = .read k) → Handle.call hp j h = .next (h, .err .usageError)

/-- R166: there is no downgrade, and a dialect changes only in a call of the upgrade that reports success. -/
def Obligations.DialectChangesOnlyByUpgrade : Prop :=
  ∀ (hp : HostParams) (h h' : Handle) (k : Composite) (r : HandleResult),
    Handle.call hp k h = .next (h', r) →
    (h'.dialect = h.dialect ∧ r ≠ .upgraded) ∨
    (k = .upgrade ∧ r = .upgraded ∧ h.dialect = .base ∧ h'.dialect = .extended)

/-- R164: an upgrade whose firmware response is ready yields the extended handle over the same block when the
version is at least `FW_EXTENDED_MIN`, 5 by default; otherwise it reports `UnsupportedFirmware` and the base
handle stays. -/
def Obligations.UpgradeFollowsTheFirmwareVersion : Prop :=
  ∀ (hp : HostParams) (h : Handle) (t : State) (f : Frame), h.dialect = .base → h.phase = .read .upgrade →
    exec .prd h.block = .next t → t.result = some (.ready f) →
    (hp.fwExtendedMin ≤ hp.fwVersionOf f →
      Handle.call hp .upgrade h = .next ({ dialect := .extended, phase := .idle, block := t }, .upgraded)) ∧
    (hp.fwVersionOf f < hp.fwExtendedMin →
      Handle.call hp .upgrade h =
        .next ({ dialect := .base, phase := .idle, block := t }, .err .unsupportedFirmware))

/-- R169: the handle returns every block error unchanged and swallows none. -/
def Obligations.HandleReturnsBlockErrorsUnchanged : Prop :=
  ∀ (hp : HostParams) (h h' : Handle) (k : Composite) (r : HandleResult) (e : BlockError),
    h.phase = .write k ∨ h.phase = .read k → Handle.call hp k h = .next (h', r) →
    (h'.block.result = some (.error e) ↔ r = .err (.block e))

/-- A handle and its block stay in the same phase of an exchange through every call, from creation on
(R168, R30). -/
def Obligations.HandleAgreesWithItsBlock : Prop :=
  (∀ cfg tr, (Handle.create cfg tr).Agrees) ∧
  (∀ (hp : HostParams) (h h' : Handle) (k : Composite) (r : HandleResult),
    h.Agrees → Handle.call hp k h = .next (h', r) → h'.Agrees)

/-- A handle that agrees with its block never drives it into a fault or to a result its machine does not
expect, and never has a poll refused (R168). -/
def Obligations.HandleCallsNeverFail : Prop :=
  ∀ (hp : HostParams) (h : Handle) (k : Composite), h.Agrees → k.availableOn h.dialect = true →
    (∀ r, Handle.call hp k h ≠ .fault r) ∧ Handle.call hp k h ≠ .refused .unexpectedResult ∧
    Handle.call hp k h ≠ .refused .notOfDialect ∧
    (h.phase ≠ .idle → ∃ h' r, Handle.call hp k h = .next (h', r))

/-- R162: from an idle handle, whatever `WouldBlock` answers the transport gives in between, calling
`read_co2_ppm` once to start, once for each write answer and once for each read answer returns the CO₂ value of
the response frame, with the request on the wire and the handle idle again. -/
def Obligations.ReadCo2EndToEnd : Prop :=
  ∀ (hp : HostParams) (h : Handle) (w : List WriteAnswer) (r : List ReadAnswer)
    (ws : List WriteAnswer) (rs : List ReadAnswer) (f : Frame) (b : Byte),
    h.phase = .idle → h.block.writeAnswers = w ++ .transferred :: ws →
    h.block.readAnswers = r ++ .got b :: rs →
    (∀ e, WriteAnswer.tErr e ∉ w) → w.count .transferred = 8 →
    (∀ e, ReadAnswer.tErr e ∉ r) → r.filterMap gotByte ++ [b] = f.toList →
    f[0] = h.block.cfg.startByte → f[8] = checksum f →
    ∃ (h' : Handle) (v : BitVec 16),
      Handle.calls hp .readCo2 (1 + (w.length + 1) + (r.length + 1)) h none = .next (h', some (.co2 v)) ∧
      v.toNat = f[2].toNat * 256 + f[3].toNat ∧ h'.phase = .idle ∧ h'.dialect = h.dialect ∧
      h'.block.IdleShape ∧
      ∃ q : Frame,
        q[0] = h.block.cfg.startByte ∧ q[1] = h.block.cfg.sensorIndex ∧ q[2] = h.block.cfg.cmdReadCo2 ∧
        (∀ (k : Nat) (_ : k < 5), q[3 + k] = 0) ∧ q[8] = checksum q ∧
        (HasSourceValues h.block.cfg → q = #v[0xFF, 0x01, 0x86, 0, 0, 0, 0, 0, 0x79]) ∧
        h'.block.outHistory = h.block.outHistory ++ q.toList

/-- R167, R203: releasing a handle in whatever state gives its transport back, and a handle created on it owns
that very transport, with the bytes still in it and the attempts made on it, in an idle block with no result: an
exchange in progress is gone without one. The count of attempts is the model's own (log 8). -/
def Obligations.ReleaseGivesTheTransportBack : Prop :=
  ∀ (h : Handle) (cfg : Params),
    let h' := Handle.create cfg h.release
    h'.dialect = .base ∧ h'.phase = .idle ∧ h'.block.IdleShape ∧ h'.block.result = none ∧
    h'.block.cfg = cfg ∧ h'.block.transportId = h.block.transportId ∧
    h'.block.attempts = h.block.attempts ∧ h'.block.writeAnswers = h.block.writeAnswers ∧
    h'.block.readAnswers = h.block.readAnswers ∧ h'.block.outHistory = h.block.outHistory ∧
    h'.block.inHistory = h.block.inHistory ∧ h'.block.nextWriteAnswer = h.block.nextWriteAnswer ∧
    h'.block.nextReadAnswer = h.block.nextReadAnswer

/-- The values the source settles (R5, R63, R64) are those of the reset configuration, and every admitted frame
there begins `FF 01`. -/
def Obligations.ResetConfigurationHasTheSourceValues : Prop :=
  HasSourceValues State.reset.cfg ∧
  ∀ (cmd : Byte) (pl : Payload) (s t : State) (f : Frame), s.cfg = State.reset.cfg →
    exec (.enc cmd pl) s = .next t → t.result = some (.okFrame f) → f[0] = 0xFF ∧ f[1] = 0x01

/-- R5, D19: `TransportErrorT` is opaque to the block. Exchanging the error values of the transport for any
others, in whatever way, exchanges them in what an operation leaves and changes nothing else. The two premises
leave out the free draws, which are not the state's. -/
def Obligations.TransportErrorsAreCarriedUnread : Prop :=
  ∀ (g : TransportErrorT → TransportErrorT) (i : Instr) (s : State),
    s.writeAnswers ≠ [] → s.readAnswers ≠ [] →
    exec i (s.mapErrors g) = mapNext (State.mapErrors g) (exec i s)
end

