-- ==== Sys2Proof/Laws/Operands.lean ====
section
/-! SUPPORT. One lemma per operand function: what the checksum, frame encoding, validation and the
accumulated bytes are, for proofs to cite. -/

namespace Sys2Proof.Machine

theorem checksum_toNat (f : Frame) : (checksum f).toNat = (256 - bodySum f % 256) % 256 := by
  simp [checksum]

variable {cfg : Params}

theorem encodeFrame_eq (cfg : Params) (cmd : Byte) (pl : Payload) :
    encodeFrame cfg cmd pl =
      #v[cfg.startByte, cfg.sensorIndex, cmd, pl[0], pl[1], pl[2], pl[3], pl[4],
        checksum #v[cfg.startByte, cfg.sensorIndex, cmd, pl[0], pl[1], pl[2], pl[3], pl[4], 0]] := rfl

theorem checksum_congr {f g : Frame} (h : bodySum f = bodySum g) : checksum f = checksum g := by
  rw [checksum, checksum, h]

theorem encodeFrame_checksum (cfg : Params) (cmd : Byte) (pl : Payload) :
    (encodeFrame cfg cmd pl)[8] = checksum (encodeFrame cfg cmd pl) := by
  rw [encodeFrame_eq]
  exact checksum_congr rfl

theorem validateFrame_start {f : Frame} (h : f[0] ≠ cfg.startByte) :
    validateFrame cfg f = .error .unexpectedStartByte := if_pos h

theorem validateFrame_mismatch {f : Frame} (h : f[0] = cfg.startByte) (hc : f[8] ≠ checksum f) :
    validateFrame cfg f = .error (.checksumMismatch (checksum f) f[8]) := by
  rw [validateFrame, if_neg (by simp [h]), if_pos hc]

theorem validateFrame_ok {f : Frame} (h : f[0] = cfg.startByte) (hc : f[8] = checksum f) :
    validateFrame cfg f = .ok f := by
  rw [validateFrame, if_neg (by simp [h]), if_neg (by simp [hc])]

theorem frameOfBytes_toList (f : Frame) : frameOfBytes f.toList = some f := by
  obtain ⟨⟨l⟩, hl⟩ := f
  match l, hl with
  | [_, _, _, _, _, _, _, _, _], _ => rfl

theorem frameOfBytes_of_length {l : List Byte} (h : l.length = 9) :
    ∃ f : Frame, f.toList = l ∧ frameOfBytes l = some f := by
  match l, h with
  | [b0, b1, b2, b3, b4, b5, b6, b7, b8], _ =>
    exact ⟨#v[b0, b1, b2, b3, b4, b5, b6, b7, b8], rfl, rfl⟩

theorem eq_toList_of_frameOfBytes {l : List Byte} {f : Frame} (h : frameOfBytes l = some f) :
    l = f.toList := by
  unfold frameOfBytes at h
  split at h
  · cases h; rfl
  · cases h

theorem commandValid_cmdReadCo2 (cfg : Params) : commandValid cfg cfg.cmdReadCo2 = true := by
  simp [commandValid]

theorem payloadValid_cmdReadCo2 (cfg : Params) : payloadValid cfg cfg.cmdReadCo2 zeroPayload = true := by
  simp [payloadValid]

theorem commandValid_of_entry {e : CommandEntry} (he : e ∈ cfg.commands) :
    commandValid cfg (codeValue cfg e.code) = true := by
  simp only [commandValid, Bool.or_eq_true, List.any_eq_true]
  exact .inr ⟨e, he, by simp⟩

theorem payloadValid_of_entry {e : CommandEntry} {sh : PayloadShape} {pl : Payload}
    (he : e ∈ cfg.commands) (hs : sh ∈ e.shapes) (ha : shapeAdmits sh pl = true) :
    payloadValid cfg (codeValue cfg e.code) pl = true := by
  simp only [payloadValid, Bool.or_eq_true, List.any_eq_true, Bool.and_eq_true]
  exact .inr ⟨e, he, by simp, sh, hs, ha⟩

end Sys2Proof.Machine
end

