-- ==== Sys2Proof/Laws/State.lean ====
section
/-! SUPPORT. What each named update of the state does to each field: one lemma per field, true by `rfl`. -/

namespace Sys2Proof.Machine

@[simp] theorem State.ret_phase (r : Result) (s : State) :
    (s.ret r).phase = s.phase := rfl
@[simp] theorem State.ret_txFrame (r : Result) (s : State) :
    (s.ret r).txFrame = s.txFrame := rfl
@[simp] theorem State.ret_txCount (r : Result) (s : State) :
    (s.ret r).txCount = s.txCount := rfl
@[simp] theorem State.ret_rxBuf (r : Result) (s : State) :
    (s.ret r).rxBuf = s.rxBuf := rfl
@[simp] theorem State.ret_result (r : Result) (s : State) :
    (s.ret r).result = some r := rfl
@[simp] theorem State.ret_cfg (r : Result) (s : State) :
    (s.ret r).cfg = s.cfg := rfl
@[simp] theorem State.ret_transportId (r : Result) (s : State) :
    (s.ret r).transportId = s.transportId := rfl
@[simp] theorem State.ret_writeAnswers (r : Result) (s : State) :
    (s.ret r).writeAnswers = s.writeAnswers := rfl
@[simp] theorem State.ret_readAnswers (r : Result) (s : State) :
    (s.ret r).readAnswers = s.readAnswers := rfl
@[simp] theorem State.ret_attempts (r : Result) (s : State) :
    (s.ret r).attempts = s.attempts := rfl
@[simp] theorem State.ret_outHistory (r : Result) (s : State) :
    (s.ret r).outHistory = s.outHistory := rfl
@[simp] theorem State.ret_inHistory (r : Result) (s : State) :
    (s.ret r).inHistory = s.inHistory := rfl
@[simp] theorem State.ret_events (r : Result) (s : State) :
    (s.ret r).events = s.events := rfl

@[simp] theorem State.resetToIdle_phase (s : State) :
    (s.resetToIdle).phase = .idle := rfl
@[simp] theorem State.resetToIdle_txFrame (s : State) :
    (s.resetToIdle).txFrame = s.txFrame := rfl
@[simp] theorem State.resetToIdle_txCount (s : State) :
    (s.resetToIdle).txCount = 0 := rfl
@[simp] theorem State.resetToIdle_rxBuf (s : State) :
    (s.resetToIdle).rxBuf = [] := rfl
@[simp] theorem State.resetToIdle_result (s : State) :
    (s.resetToIdle).result = s.result := rfl
@[simp] theorem State.resetToIdle_cfg (s : State) :
    (s.resetToIdle).cfg = s.cfg := rfl
@[simp] theorem State.resetToIdle_transportId (s : State) :
    (s.resetToIdle).transportId = s.transportId := rfl
@[simp] theorem State.resetToIdle_writeAnswers (s : State) :
    (s.resetToIdle).writeAnswers = s.writeAnswers := rfl
@[simp] theorem State.resetToIdle_readAnswers (s : State) :
    (s.resetToIdle).readAnswers = s.readAnswers := rfl
@[simp] theorem State.resetToIdle_attempts (s : State) :
    (s.resetToIdle).attempts = s.attempts := rfl
@[simp] theorem State.resetToIdle_outHistory (s : State) :
    (s.resetToIdle).outHistory = s.outHistory := rfl
@[simp] theorem State.resetToIdle_inHistory (s : State) :
    (s.resetToIdle).inHistory = s.inHistory := rfl
@[simp] theorem State.resetToIdle_events (s : State) :
    (s.resetToIdle).events = s.events := rfl

@[simp] theorem State.loadRequest_phase (f : Frame) (s : State) :
    (s.loadRequest f).phase = .writing := rfl
@[simp] theorem State.loadRequest_txFrame (f : Frame) (s : State) :
    (s.loadRequest f).txFrame = f := rfl
@[simp] theorem State.loadRequest_txCount (f : Frame) (s : State) :
    (s.loadRequest f).txCount = 0 := rfl
@[simp] theorem State.loadRequest_rxBuf (f : Frame) (s : State) :
    (s.loadRequest f).rxBuf = [] := rfl
@[simp] theorem State.loadRequest_result (f : Frame) (s : State) :
    (s.loadRequest f).result = s.result := rfl
@[simp] theorem State.loadRequest_cfg (f : Frame) (s : State) :
    (s.loadRequest f).cfg = s.cfg := rfl
@[simp] theorem State.loadRequest_transportId (f : Frame) (s : State) :
    (s.loadRequest f).transportId = s.transportId := rfl
@[simp] theorem State.loadRequest_writeAnswers (f : Frame) (s : State) :
    (s.loadRequest f).writeAnswers = s.writeAnswers := rfl
@[simp] theorem State.loadRequest_readAnswers (f : Frame) (s : State) :
    (s.loadRequest f).readAnswers = s.readAnswers := rfl
@[simp] theorem State.loadRequest_attempts (f : Frame) (s : State) :
    (s.loadRequest f).attempts = s.attempts := rfl
@[simp] theorem State.loadRequest_outHistory (f : Frame) (s : State) :
    (s.loadRequest f).outHistory = s.outHistory := rfl
@[simp] theorem State.loadRequest_inHistory (f : Frame) (s : State) :
    (s.loadRequest f).inHistory = s.inHistory := rfl
@[simp] theorem State.loadRequest_events (f : Frame) (s : State) :
    (s.loadRequest f).events = s.events := rfl

@[simp] theorem State.advanceTx_phase (s : State) :
    (s.advanceTx).phase = if s.txCount + 1 = 9 then .reading else s.phase := rfl
@[simp] theorem State.advanceTx_txFrame (s : State) :
    (s.advanceTx).txFrame = s.txFrame := rfl
@[simp] theorem State.advanceTx_txCount (s : State) :
    (s.advanceTx).txCount = s.txCount + 1 := rfl
@[simp] theorem State.advanceTx_rxBuf (s : State) :
    (s.advanceTx).rxBuf = s.rxBuf := rfl
@[simp] theorem State.advanceTx_result (s : State) :
    (s.advanceTx).result = s.result := rfl
@[simp] theorem State.advanceTx_cfg (s : State) :
    (s.advanceTx).cfg = s.cfg := rfl
@[simp] theorem State.advanceTx_transportId (s : State) :
    (s.advanceTx).transportId = s.transportId := rfl
@[simp] theorem State.advanceTx_writeAnswers (s : State) :
    (s.advanceTx).writeAnswers = s.writeAnswers := rfl
@[simp] theorem State.advanceTx_readAnswers (s : State) :
    (s.advanceTx).readAnswers = s.readAnswers := rfl
@[simp] theorem State.advanceTx_attempts (s : State) :
    (s.advanceTx).attempts = s.attempts := rfl
@[simp] theorem State.advanceTx_outHistory (s : State) :
    (s.advanceTx).outHistory = s.outHistory := rfl
@[simp] theorem State.advanceTx_inHistory (s : State) :
    (s.advanceTx).inHistory = s.inHistory := rfl
@[simp] theorem State.advanceTx_events (s : State) :
    (s.advanceTx).events = s.events := rfl

@[simp] theorem State.pushRx_phase (b : Byte) (s : State) :
    (s.pushRx b).phase = s.phase := rfl
@[simp] theorem State.pushRx_txFrame (b : Byte) (s : State) :
    (s.pushRx b).txFrame = s.txFrame := rfl
@[simp] theorem State.pushRx_txCount (b : Byte) (s : State) :
    (s.pushRx b).txCount = s.txCount := rfl
@[simp] theorem State.pushRx_rxBuf (b : Byte) (s : State) :
    (s.pushRx b).rxBuf = s.rxBuf ++ [b] := rfl
@[simp] theorem State.pushRx_result (b : Byte) (s : State) :
    (s.pushRx b).result = s.result := rfl
@[simp] theorem State.pushRx_cfg (b : Byte) (s : State) :
    (s.pushRx b).cfg = s.cfg := rfl
@[simp] theorem State.pushRx_transportId (b : Byte) (s : State) :
    (s.pushRx b).transportId = s.transportId := rfl
@[simp] theorem State.pushRx_writeAnswers (b : Byte) (s : State) :
    (s.pushRx b).writeAnswers = s.writeAnswers := rfl
@[simp] theorem State.pushRx_readAnswers (b : Byte) (s : State) :
    (s.pushRx b).readAnswers = s.readAnswers := rfl
@[simp] theorem State.pushRx_attempts (b : Byte) (s : State) :
    (s.pushRx b).attempts = s.attempts := rfl
@[simp] theorem State.pushRx_outHistory (b : Byte) (s : State) :
    (s.pushRx b).outHistory = s.outHistory := rfl
@[simp] theorem State.pushRx_inHistory (b : Byte) (s : State) :
    (s.pushRx b).inHistory = s.inHistory := rfl
@[simp] theorem State.pushRx_events (b : Byte) (s : State) :
    (s.pushRx b).events = s.events := rfl

@[simp] theorem State.afterWrite_phase (b : Byte) (a : WriteAnswer) (s : State) :
    (s.afterWrite b a).phase = s.phase := rfl
@[simp] theorem State.afterWrite_txFrame (b : Byte) (a : WriteAnswer) (s : State) :
    (s.afterWrite b a).txFrame = s.txFrame := rfl
@[simp] theorem State.afterWrite_txCount (b : Byte) (a : WriteAnswer) (s : State) :
    (s.afterWrite b a).txCount = s.txCount := rfl
@[simp] theorem State.afterWrite_rxBuf (b : Byte) (a : WriteAnswer) (s : State) :
    (s.afterWrite b a).rxBuf = s.rxBuf := rfl
@[simp] theorem State.afterWrite_result (b : Byte) (a : WriteAnswer) (s : State) :
    (s.afterWrite b a).result = s.result := rfl
@[simp] theorem State.afterWrite_cfg (b : Byte) (a : WriteAnswer) (s : State) :
    (s.afterWrite b a).cfg = s.cfg := rfl
@[simp] theorem State.afterWrite_transportId (b : Byte) (a : WriteAnswer) (s : State) :
    (s.afterWrite b a).transportId = s.transportId := rfl
@[simp] theorem State.afterWrite_writeAnswers (b : Byte) (a : WriteAnswer) (s : State) :
    (s.afterWrite b a).writeAnswers = s.writeAnswers.tail := rfl
@[simp] theorem State.afterWrite_readAnswers (b : Byte) (a : WriteAnswer) (s : State) :
    (s.afterWrite b a).readAnswers = s.readAnswers := rfl
@[simp] theorem State.afterWrite_attempts (b : Byte) (a : WriteAnswer) (s : State) :
    (s.afterWrite b a).attempts = s.attempts + 1 := rfl
@[simp] theorem State.afterWrite_inHistory (b : Byte) (a : WriteAnswer) (s : State) :
    (s.afterWrite b a).inHistory = s.inHistory := rfl
@[simp] theorem State.afterWrite_events (b : Byte) (a : WriteAnswer) (s : State) :
    (s.afterWrite b a).events = s.events := rfl

@[simp] theorem State.afterRead_phase (a : ReadAnswer) (s : State) :
    (s.afterRead a).phase = s.phase := rfl
@[simp] theorem State.afterRead_txFrame (a : ReadAnswer) (s : State) :
    (s.afterRead a).txFrame = s.txFrame := rfl
@[simp] theorem State.afterRead_txCount (a : ReadAnswer) (s : State) :
    (s.afterRead a).txCount = s.txCount := rfl
@[simp] theorem State.afterRead_rxBuf (a : ReadAnswer) (s : State) :
    (s.afterRead a).rxBuf = s.rxBuf := rfl
@[simp] theorem State.afterRead_result (a : ReadAnswer) (s : State) :
    (s.afterRead a).result = s.result := rfl
@[simp] theorem State.afterRead_cfg (a : ReadAnswer) (s : State) :
    (s.afterRead a).cfg = s.cfg := rfl
@[simp] theorem State.afterRead_transportId (a : ReadAnswer) (s : State) :
    (s.afterRead a).transportId = s.transportId := rfl
@[simp] theorem State.afterRead_writeAnswers (a : ReadAnswer) (s : State) :
    (s.afterRead a).writeAnswers = s.writeAnswers := rfl
@[simp] theorem State.afterRead_readAnswers (a : ReadAnswer) (s : State) :
    (s.afterRead a).readAnswers = s.readAnswers.tail := rfl
@[simp] theorem State.afterRead_attempts (a : ReadAnswer) (s : State) :
    (s.afterRead a).attempts = s.attempts + 1 := rfl
@[simp] theorem State.afterRead_outHistory (a : ReadAnswer) (s : State) :
    (s.afterRead a).outHistory = s.outHistory := rfl
@[simp] theorem State.afterRead_events (a : ReadAnswer) (s : State) :
    (s.afterRead a).events = s.events := rfl

@[simp] theorem State.resetEvent_phase (s : State) :
    (s.resetEvent).phase = .idle := rfl
@[simp] theorem State.resetEvent_txFrame (s : State) :
    (s.resetEvent).txFrame = #v[0, 0, 0, 0, 0, 0, 0, 0, 0] := rfl
@[simp] theorem State.resetEvent_txCount (s : State) :
    (s.resetEvent).txCount = 0 := rfl
@[simp] theorem State.resetEvent_rxBuf (s : State) :
    (s.resetEvent).rxBuf = [] := rfl
@[simp] theorem State.resetEvent_result (s : State) :
    (s.resetEvent).result = none := rfl
@[simp] theorem State.resetEvent_cfg (s : State) :
    (s.resetEvent).cfg = s.cfg := rfl
@[simp] theorem State.resetEvent_transportId (s : State) :
    (s.resetEvent).transportId = s.transportId := rfl
@[simp] theorem State.resetEvent_writeAnswers (s : State) :
    (s.resetEvent).writeAnswers = s.writeAnswers := rfl
@[simp] theorem State.resetEvent_readAnswers (s : State) :
    (s.resetEvent).readAnswers = s.readAnswers := rfl
@[simp] theorem State.resetEvent_attempts (s : State) :
    (s.resetEvent).attempts = s.attempts := rfl
@[simp] theorem State.resetEvent_outHistory (s : State) :
    (s.resetEvent).outHistory = s.outHistory := rfl
@[simp] theorem State.resetEvent_inHistory (s : State) :
    (s.resetEvent).inHistory = s.inHistory := rfl
@[simp] theorem State.resetEvent_events (s : State) :
    (s.resetEvent).events = s.events := rfl

@[simp] theorem State.afterWrite_transferred_outHistory (b : Byte) (s : State) :
    (s.afterWrite b .transferred).outHistory = s.outHistory ++ [b] := rfl
@[simp] theorem State.afterWrite_wouldBlock_outHistory (b : Byte) (s : State) :
    (s.afterWrite b .wouldBlock).outHistory = s.outHistory := rfl
@[simp] theorem State.afterWrite_tErr_outHistory (b : Byte) (e : TransportErrorT) (s : State) :
    (s.afterWrite b (.tErr e)).outHistory = s.outHistory := rfl
@[simp] theorem State.afterRead_got_inHistory (b : Byte) (s : State) :
    (s.afterRead (.got b)).inHistory = s.inHistory ++ [b] := rfl
@[simp] theorem State.afterRead_wouldBlock_inHistory (s : State) :
    (s.afterRead .wouldBlock).inHistory = s.inHistory := rfl
@[simp] theorem State.afterRead_tErr_inHistory (e : TransportErrorT) (s : State) :
    (s.afterRead (.tErr e)).inHistory = s.inHistory := rfl

@[simp] theorem State.attach_phase (tr : Transport) (s : State) :
    (s.attach tr).phase = s.phase := rfl
@[simp] theorem State.attach_txFrame (tr : Transport) (s : State) :
    (s.attach tr).txFrame = s.txFrame := rfl
@[simp] theorem State.attach_txCount (tr : Transport) (s : State) :
    (s.attach tr).txCount = s.txCount := rfl
@[simp] theorem State.attach_rxBuf (tr : Transport) (s : State) :
    (s.attach tr).rxBuf = s.rxBuf := rfl
@[simp] theorem State.attach_result (tr : Transport) (s : State) :
    (s.attach tr).result = s.result := rfl
@[simp] theorem State.attach_cfg (tr : Transport) (s : State) :
    (s.attach tr).cfg = s.cfg := rfl
@[simp] theorem State.attach_events (tr : Transport) (s : State) :
    (s.attach tr).events = s.events := rfl
@[simp] theorem State.attach_transportId (tr : Transport) (s : State) :
    (s.attach tr).transportId = tr.id := rfl
@[simp] theorem State.attach_writeAnswers (tr : Transport) (s : State) :
    (s.attach tr).writeAnswers = tr.writeAnswers := rfl
@[simp] theorem State.attach_readAnswers (tr : Transport) (s : State) :
    (s.attach tr).readAnswers = tr.readAnswers := rfl
@[simp] theorem State.attach_attempts (tr : Transport) (s : State) :
    (s.attach tr).attempts = tr.attempts := rfl
@[simp] theorem State.attach_outHistory (tr : Transport) (s : State) :
    (s.attach tr).outHistory = tr.outHistory := rfl
@[simp] theorem State.attach_inHistory (tr : Transport) (s : State) :
    (s.attach tr).inHistory = tr.inHistory := rfl
@[simp] theorem State.transport_attach (tr : Transport) (s : State) :
    (s.attach tr).transport = tr := rfl
@[simp] theorem State.attach_transport (s : State) : s.attach s.transport = s := rfl

end Sys2Proof.Machine
end

