-- ==== Sys2Proof/Laws/Ops.lean ====
section
/-! SUPPORT. One inversion lemma per shared operation and per transceiver operation: everything it can do,
so that a later proof cites the lemma and does not unfold the operation. -/

namespace Sys2Proof.Machine

variable {s t : State}

theorem nextWriteAnswer_cons {a : WriteAnswer} {l : List WriteAnswer} (h : s.writeAnswers = a :: l) :
    s.nextWriteAnswer = a := by rw [State.nextWriteAnswer, h]

theorem nextReadAnswer_cons {a : ReadAnswer} {l : List ReadAnswer} (h : s.readAnswers = a :: l) :
    s.nextReadAnswer = a := by rw [State.nextReadAnswer, h]

theorem withRequest_valid {cmd : Byte} {pl : Payload} {k : Frame → State}
    (hc : commandValid s.cfg cmd = true) (hp : payloadValid s.cfg cmd pl = true) :
    withRequest cmd pl s k = .next (k (encodeFrame s.cfg cmd pl)) := by
  simp [withRequest, hc, hp]

theorem withRequest_next {cmd : Byte} {pl : Payload} {k : Frame → State}
    (h : withRequest cmd pl s k = .next t) :
    commandValid s.cfg cmd = true ∧ payloadValid s.cfg cmd pl = true ∧ t = k (encodeFrame s.cfg cmd pl) := by
  unfold withRequest at h
  split at h
  · cases h
  · split at h
    · cases h
    · cases h; simp_all

theorem withRequest_not_fault {cmd : Byte} {pl : Payload} {k : Frame → State} {r : Fault} :
    withRequest cmd pl s k ≠ .fault r := by
  unfold withRequest
  split
  · exact nofun
  · split <;> exact nofun

theorem requestExchange_next {cmd : Byte} {pl : Payload} (h : requestExchange cmd pl s = .next t) :
    t = startExchange (encodeFrame s.cfg cmd pl) s :=
  (withRequest_next h).2.2

theorem requestExchange_valid {cmd : Byte} {pl : Payload}
    (hc : commandValid s.cfg cmd = true) (hp : payloadValid s.cfg cmd pl = true) :
    requestExchange cmd pl s = .next (startExchange (encodeFrame s.cfg cmd pl) s) :=
  withRequest_valid hc hp

theorem requestExchange_not_fault {cmd : Byte} {pl : Payload} {r : Fault} :
    requestExchange cmd pl s ≠ .fault r :=
  withRequest_not_fault

/-- Everything `PWR` can do when it answers a next state. -/
theorem execPwr_next (h : execPwr s = .next t) :
    (s.phase ≠ .writing ∧ t = s.ret .complete) ∨
    (s.phase = .writing ∧ ∃ b, s.txFrame[s.txCount.toNat]? = some b ∧
      ((s.nextWriteAnswer = .wouldBlock ∧ t = (s.afterWrite b .wouldBlock).ret .inProgress) ∨
       (∃ e, s.nextWriteAnswer = .tErr e ∧ t = raiseFatal (.transport e) (s.afterWrite b (.tErr e))) ∨
       (s.nextWriteAnswer = .transferred ∧
        t = (s.afterWrite b .transferred).advanceTx.ret
          (if s.txCount + 1 = 9 then .complete else .inProgress)))) := by
  unfold execPwr at h
  split at h
  next hp =>
    split at h
    · cases h
    next b hb =>
      refine .inr ⟨hp, b, hb, ?_⟩
      simp only [tryWrite] at h
      split at h <;> (rename_i heq; injection heq with h1 h2; subst h2; cases h; simp [h1])
  next hp => exact .inl ⟨hp, by cases h; rfl⟩

/-- Everything `finishRead` can do when it answers a next state. -/
theorem finishRead_next (h : finishRead s = .next t) :
    (s.rxBuf.length < 9 ∧ t = s.ret .inProgress) ∨
    (∃ f : Frame, s.rxBuf = f.toList ∧
      ((validateFrame s.cfg f = .ok f ∧ t = s.resetToIdle.ret (.ready f)) ∨
       (∃ e, validateFrame s.cfg f = .error e ∧ t = raiseFatal e s))) := by
  unfold finishRead at h
  split at h
  next hl => exact .inl ⟨hl, by cases h; rfl⟩
  · split at h
    · cases h
    next f hf =>
      refine .inr ⟨f, eq_toList_of_frameOfBytes hf, ?_⟩
      split at h
      next g hg =>
        have : g = f := by
          unfold validateFrame at hg
          split at hg
          · cases hg
          · split at hg
            · cases hg
            · cases hg; rfl
        subst this
        cases h
        exact .inl ⟨hg, rfl⟩
      next e he => cases h; exact .inr ⟨e, he, rfl⟩

/-- Everything `PRD` can do when it answers a next state. -/
theorem execPrd_next (h : execPrd s = .next t) :
    (s.phase ≠ .reading ∧ t = s.ret .inProgress) ∨
    (s.phase = .reading ∧
      ((s.nextReadAnswer = .wouldBlock ∧ t = (s.afterRead .wouldBlock).ret .inProgress) ∨
       (∃ e, s.nextReadAnswer = .tErr e ∧ t = raiseFatal (.transport e) (s.afterRead (.tErr e))) ∨
       (∃ b, s.nextReadAnswer = .got b ∧ finishRead ((s.afterRead (.got b)).pushRx b) = .next t))) := by
  unfold execPrd at h
  split at h
  next hp =>
    refine .inr ⟨hp, ?_⟩
    simp only [tryRead] at h
    split at h <;> (rename_i heq; injection heq with h1 h2; subst h2; simp only [h1] at h ⊢)
    · cases h; simp
    · cases h; simp
    · simp [h]
  next hp => exact .inl ⟨hp, by cases h; rfl⟩

/-- The result of a codec operation, when it has one. -/
theorem execVal_eq (fin : Frame) (s : State) : ∃ r, execVal fin s = .next (s.ret r) := by
  unfold execVal
  split
  · exact ⟨_, rfl⟩
  · exact ⟨_, rfl⟩

end Sys2Proof.Machine
end

