-- ==== Sys2Proof/Laws/Exec.lean ====
section
/-! SUPPORT. What `exec` is for each instruction, and the one inversion lemma over all of them. -/

namespace Sys2Proof.Machine

variable {i : Instr} {s t : State}

theorem exec_csum (f : Frame) (s : State) : exec (.csum f) s = .next (s.ret (.okByte (checksum f))) := rfl
theorem exec_enc (cmd : Byte) (pl : Payload) (s : State) :
    exec (.enc cmd pl) s = withRequest cmd pl s (fun f => s.ret (.okFrame f)) := rfl
theorem exec_val (f : Frame) (s : State) : exec (.val f) s = execVal f s := rfl
theorem exec_xco2 (f : Frame) (s : State) : exec (.xco2 f) s = .next (s.ret (.okCo2 (extractCo2 f))) := rfl
theorem exec_xct (f : Frame) (s : State) :
    exec (.xct f) s = .next (s.ret (.okCo2Temp (extractCo2 f) (extractTemp s.cfg f))) := rfl
theorem exec_beginExchange (cmd : Byte) (pl : Payload) (s : State) :
    exec (.beginExchange cmd pl) s = requestExchange cmd pl s := rfl
theorem exec_pwr (s : State) : exec .pwr s = execPwr s := rfl
theorem exec_prd (s : State) : exec .prd s = execPrd s := rfl
theorem exec_frameReadCo2 (s : State) :
    exec .frameReadCo2 s = requestExchange s.cfg.cmdReadCo2 zeroPayload s := rfl
theorem exec_frameReadCo2Temp (pl : Payload) (s : State) : exec (.frameReadCo2Temp pl) s =
    requestExchange (codeValue s.cfg .readCo2Temp) pl s := rfl
theorem exec_frameGetFirmware (pl : Payload) (s : State) : exec (.frameGetFirmware pl) s =
    requestExchange (codeValue s.cfg .getFirmware) pl s := rfl
theorem exec_frameSelfCalibration (pl : Payload) (s : State) : exec (.frameSelfCalibration pl) s =
    requestExchange (codeValue s.cfg .selfCalibration) pl s := rfl

/-- A codec operation that answers a next state has put a result on the port. -/
theorem exec_codec (hc : isCodec i = true) (h : exec i s = .next t) : ∃ r, t = s.ret r := by
  cases i <;> simp only [isCodec, Bool.false_eq_true] at hc
  case csum => rw [exec_csum] at h; cases h; exact ⟨_, rfl⟩
  case enc => rw [exec_enc] at h; exact ⟨_, (withRequest_next h).2.2⟩
  case val f => obtain ⟨r, hr⟩ := execVal_eq f s; rw [exec_val, hr] at h; cases h; exact ⟨r, rfl⟩
  case xco2 => rw [exec_xco2] at h; cases h; exact ⟨_, rfl⟩
  case xct => rw [exec_xct] at h; cases h; exact ⟨_, rfl⟩

/-- A starting operation that answers a next state has started an exchange with some request frame. -/
theorem exec_start (hs : startsExchange i = true) (h : exec i s = .next t) :
    ∃ c pl, t = startExchange (encodeFrame s.cfg c pl) s := by
  cases i <;> simp only [startsExchange, Bool.false_eq_true] at hs
  case beginExchange => rw [exec_beginExchange] at h; exact ⟨_, _, requestExchange_next h⟩
  case frameReadCo2 => rw [exec_frameReadCo2] at h; exact ⟨_, _, requestExchange_next h⟩
  case frameReadCo2Temp => rw [exec_frameReadCo2Temp] at h; exact ⟨_, _, requestExchange_next h⟩
  case frameGetFirmware => rw [exec_frameGetFirmware] at h; exact ⟨_, _, requestExchange_next h⟩
  case frameSelfCalibration => rw [exec_frameSelfCalibration] at h; exact ⟨_, _, requestExchange_next h⟩

/-- Everything an instruction can do when it answers a next state; `execPwr_next` and `execPrd_next` say the
rest for the two polls. -/
theorem exec_next (h : exec i s = .next t) :
    (isCodec i = true ∧ ∃ r, t = s.ret r) ∨
    (startsExchange i = true ∧ ∃ c pl, t = startExchange (encodeFrame s.cfg c pl) s) ∨
    (i = .pwr ∧ execPwr s = .next t) ∨ (i = .prd ∧ execPrd s = .next t) := by
  have kind : isCodec i = true ∨ startsExchange i = true ∨ i = .pwr ∨ i = .prd := by
    cases i <;> simp [isCodec, startsExchange]
  rcases kind with hc | hc | rfl | rfl
  · exact .inl ⟨hc, exec_codec hc h⟩
  · exact .inr (.inl ⟨hc, exec_start hc h⟩)
  · exact .inr (.inr (.inl ⟨rfl, h⟩))
  · exact .inr (.inr (.inr ⟨rfl, h⟩))

end Sys2Proof.Machine
end

