-- ==== Sys2Proof/Laws/PerInstr.lean ====
section
/-! SUPPORT. Statements made for all instructions, one lemma per constructor: a transaction is 16 bytes
whatever the operation (30_encoding.md R70). -/

namespace Sys2Proof.Laws.EncodedLength

def Statement (i : Instr) : Prop := ∀ cfg bs, encode cfg i = some bs → bs.length = 16

theorem transactionBytes_length (t : Transaction) : (transactionBytes t).length = 16 := by
  simp [transactionBytes]

theorem of_encode (i : Instr) : Statement i := by
  intro cfg bs h
  obtain ⟨t, -, rfl⟩ := Option.map_eq_some_iff.mp h
  exact transactionBytes_length t

theorem csum (fin : Frame) : Statement (.csum fin) := of_encode _
theorem enc (cmd : Byte) (pl : Payload) : Statement (.enc cmd pl) := of_encode _
theorem val (fin : Frame) : Statement (.val fin) := of_encode _
theorem xco2 (fin : Frame) : Statement (.xco2 fin) := of_encode _
theorem xct (fin : Frame) : Statement (.xct fin) := of_encode _
theorem beginExchange (cmd : Byte) (pl : Payload) : Statement (.beginExchange cmd pl) := of_encode _
theorem pwr : Statement .pwr := of_encode _
theorem prd : Statement .prd := of_encode _
theorem frameReadCo2 : Statement .frameReadCo2 := of_encode _
theorem frameReadCo2Temp (pl : Payload) : Statement (.frameReadCo2Temp pl) := of_encode _
theorem frameGetFirmware (pl : Payload) : Statement (.frameGetFirmware pl) := of_encode _
theorem frameSelfCalibration (pl : Payload) : Statement (.frameSelfCalibration pl) := of_encode _

end Sys2Proof.Laws.EncodedLength
end

