-- ==== Sys2Proof/Tests/Slice0.lean ====
section
/-! SUPPORT. The model's own tests. Expected results are the spec's: the vectors and worked examples of
95_test_vectors.md, by their ids, and words written out from 30_encoding.md R64 to R67. The theorems named
`test_hyp_` show, for each statement with hypotheses, concrete inputs that meet them all together. -/

namespace Sys2Proof.Tests

open Sys2Proof Sys2Proof.Machine

/-! ### Small states -/

/-- The request of W1. -/
def request : Frame := #v[0xFF, 0x01, 0x86, 0x00, 0x00, 0x00, 0x00, 0x00, 0x79]

/-- The response of W2, with the checksum derived there. -/
def response : Frame := #v[0xFF, 0x86, 0x02, 0x3C, 0x00, 0x00, 0x00, 0x00, 0x3C]

/-- The first eight bytes of that response. -/
def eightBytes : List Byte := [0xFF, 0x86, 0x02, 0x3C, 0x00, 0x00, 0x00, 0x00]

/-- The all-zero payload `Z` of 95_test_vectors.md. -/
def zeros : Payload := #v[0, 0, 0, 0, 0]

/-- A test configuration: three more commands with every payload, one with the payload of V-ENC-2 only, and a
code for each frame command. -/
def testParams : Params :=
  { commands := [⟨.byte 0x00, [⟨0, 0⟩]⟩, ⟨.getFirmware, [⟨0, 0⟩]⟩, ⟨.selfCalibration, [⟨0, 0⟩]⟩,
      ⟨.byte 0x99, [⟨0xFFFFFFFFFF, 0x8813000000⟩]⟩]
    cmdReadCo2Temp := some 0x99
    cmdGetFirmware := some 0xFF
    cmdSelfCalibration := some 0x42 }

def configured : State := State.resetWith testParams

/-- The firmware command named in the enumeration, with the zero payload, while its code stays OPEN. -/
def openCode : State :=
  State.resetWith { Config.defaultParams with
    commands := [⟨.getFirmware, [⟨0xFFFFFFFFFF, 0⟩]⟩], cmdReadCo2Temp := none, cmdGetFirmware := none }

/-- `WRITING`, with the request of W1 and these write answers to come. -/
def writing (count : BitVec 4) (answers : List WriteAnswer) : State :=
  { State.reset with phase := .writing, txFrame := request, txCount := count, writeAnswers := answers }

/-- `READING`, with these bytes received and these read answers to come. -/
def reading (received : List Byte) (answers : List ReadAnswer) : State :=
  { State.reset with
    phase := .reading, txFrame := request, txCount := 9, rxBuf := received, readAnswers := answers }

/-- A transport error. -/
def e1 : TransportErrorT := ⟨0, .inl rfl⟩

/-- The next state of an outcome, if it is one. -/
def nextOf : Host.Outcome State Fault Refusal → Option State
  | .next s => some s
  | .fault _ => none
  | .refused _ => none

/-- The result an outcome leaves on the port. -/
def resultOf (o : Host.Outcome State Fault Refusal) : Option Result := (nextOf o).bind State.result

/-- The refusal of an outcome, if it is one. -/
def refusalOf : Host.Outcome State Fault Refusal → Option Refusal
  | .next _ => none
  | .fault _ => none
  | .refused r => some r

/-- The registers of 10_state.md R20 in an outcome, but for `tx_frame`. -/
def registersOf (o : Host.Outcome State Fault Refusal) : Option (Phase × BitVec 4 × List Byte) :=
  (nextOf o).map fun s => (s.phase, s.txCount, s.rxBuf)

/-! ### Decoding: bytes written out from R66 and R67 -/

theorem test_decode_csum : decode Config.defaultParams
    [0b000, 0, 0, 0, 0, 0, 0, 0xFF, 0x86, 0x02, 0x3C, 0x21, 0, 0, 0, 0] =
    .ok (.csum #v[0xFF, 0x86, 0x02, 0x3C, 0x21, 0, 0, 0, 0], []) := by rfl

theorem test_decode_enc : decode Config.defaultParams
    [0b001, 0x99, 1, 2, 3, 4, 5, 0, 0, 0, 0, 0, 0, 0, 0, 0] =
    .ok (.enc 0x99 #v[1, 2, 3, 4, 5], []) := by rfl

theorem test_decode_val : decode Config.defaultParams
    [0b010, 0, 0, 0, 0, 0, 0, 0xFF, 0x01, 0x86, 0, 0, 0, 0, 0, 0x78] =
    .ok (.val #v[0xFF, 0x01, 0x86, 0, 0, 0, 0, 0, 0x78], []) := by rfl

theorem test_decode_xco2 : decode Config.defaultParams
    [0b011, 0, 0, 0, 0, 0, 0, 0xFF, 0x86, 0x02, 0x3C, 0, 0, 0, 0, 0x3C] =
    .ok (.xco2 response, []) := by rfl

theorem test_decode_xct : decode Config.defaultParams
    [0b100, 0, 0, 0, 0, 0, 0, 0xFF, 0x86, 0x02, 0x3C, 0x21, 0, 0, 0, 0x1B] =
    .ok (.xct #v[0xFF, 0x86, 0x02, 0x3C, 0x21, 0, 0, 0, 0x1B], []) := by rfl

theorem test_decode_begin_and_rest : decode Config.defaultParams
    [0b101, 0x86, 0, 0, 0, 0, 0, 0, 0, 0, 0, 0, 0, 0, 0, 0, 0b110] =
    .ok (.beginExchange 0x86 zeros, [0b110]) := by rfl

theorem test_decode_pwr : decodeTableWord 8 0b110 = some .pwr := by decide

theorem test_decode_prd_ignores_ports : decode Config.defaultParams
    [0b111, 1, 2, 3, 4, 5, 6, 7, 8, 9, 10, 11, 12, 13, 14, 15] = .ok (.prd, []) := by rfl

theorem test_decode_frame_read_co2 : decodeTableWord 8 0x86 = some .frameReadCo2 := by decide

theorem test_decode_frame_read_co2_temp : decode testParams
    [0x99, 0, 0, 0, 0, 0x13, 0x88, 0, 0, 0, 0, 0, 0, 0, 0, 0] =
    .ok (.frameReadCo2Temp #v[0, 0, 0, 0x13, 0x88], []) := by rfl

theorem test_decode_frame_get_firmware : decode testParams
    [0xFF, 0, 1, 2, 3, 4, 5, 0, 0, 0, 0, 0, 0, 0, 0, 0] =
    .ok (.frameGetFirmware #v[1, 2, 3, 4, 5], []) := by rfl

theorem test_decode_frame_self_calibration : decode testParams
    [0x42, 0, 1, 2, 3, 4, 5, 0, 0, 0, 0, 0, 0, 0, 0, 0] =
    .ok (.frameSelfCalibration #v[1, 2, 3, 4, 5], []) := by rfl

theorem test_decode_reserved : decode Config.defaultParams
    [0x42, 0, 0, 0, 0, 0, 0, 0, 0, 0, 0, 0, 0, 0, 0, 0] = .error (.reservedSelector 0x42) := by rfl

theorem test_decode_truncated : decode Config.defaultParams [0b110, 0] = .error (.truncated 2) := by rfl

/-- R71: `ENC cmd, p0 p1 p2 p3 p4` is `op=001` with those ports. -/
theorem test_encode_enc : encode Config.defaultParams (.enc 0x86 #v[1, 2, 3, 4, 5]) =
    some [0b001, 0x86, 1, 2, 3, 4, 5, 0, 0, 0, 0, 0, 0, 0, 0, 0] := by decide

/-- R45: byte 0 of a frame is the low byte of the port. -/
theorem test_pack_frame : packFrame request = 0x7900000000008601FF#72 := by decide

/-- R60 and R61: the two views of W1 and W2. -/
theorem test_frame_views :
    requestCommand request = 0x86 ∧ requestPayload #v[0xFF, 1, 2, 3, 4, 5, 6, 7, 8] = #v[3, 4, 5, 6, 7] ∧
      responseCommand response = 0x86 ∧ responseData response = #v[0x02, 0x3C, 0, 0, 0, 0] := by decide

/-! ### WellFormed: an ill-formed term for each check -/

theorem test_illformed_code_not_given :
    (Instr.frameGetFirmware zeros).problem Config.defaultParams = some .codeNotGiven := by decide

theorem test_illformed_selector_taken :
    (Instr.frameSelfCalibration zeros).problem { testParams with cmdSelfCalibration := some 0x99 } =
      some .selectorTaken := by decide

theorem test_illformed_command :
    (Instr.enc 0x42 zeros).problem Config.defaultParams = some .commandNotInEnumeration := by decide

theorem test_illformed_payload :
    (Instr.beginExchange 0x86 #v[1, 0, 0, 0, 0]).problem Config.defaultParams =
      some .payloadShapeInvalid := by decide

theorem test_wellformed_under_test_params :
    (Instr.frameReadCo2Temp #v[0, 0, 0, 0x13, 0x88]).WellFormed testParams ∧
      (Instr.frameGetFirmware zeros).WellFormed testParams ∧
      (Instr.frameSelfCalibration zeros).WellFormed testParams := by decide

/-! ### The codec -/

/-- V-CSUM-4: the greatest sum. -/
theorem test_csum_max_sum :
    resultOf (exec (.csum #v[0, 0xFF, 0xFF, 0xFF, 0xFF, 0xFF, 0xFF, 0xFF, 0]) State.reset) =
      some (.okByte 0x07) := by decide

/-- V-CSUM-3 and V-CSUM-9: a sum of 0 gives 0x00; bytes 0 and 8 do not enter. -/
theorem test_csum_zero_and_ends :
    resultOf (exec (.csum #v[0, 0, 0, 0, 0, 0, 0, 0, 0]) State.reset) = some (.okByte 0x00) ∧
      resultOf (exec (.csum #v[0xAB, 0x01, 0x86, 0, 0, 0, 0, 0, 0xCD]) State.reset) =
        some (.okByte 0x79) := by decide

/-- V-ENC-2. -/
theorem test_enc_payload_order :
    resultOf (exec (.enc 0x99 #v[0x00, 0x00, 0x00, 0x13, 0x88]) configured) =
      some (.okFrame #v[0xFF, 0x01, 0x99, 0x00, 0x00, 0x00, 0x13, 0x88, 0xCB]) := by decide

/-- V-ENC-5 and V-ENC-6. -/
theorem test_enc_refusals :
    refusalOf (exec (.enc 0x42 zeros) State.reset) = some .commandNotInEnumeration ∧
      refusalOf (exec (.enc 0x86 #v[1, 0, 0, 0, 0]) State.reset) = some .payloadShapeInvalid := by decide

/-- V-VAL-7: the recomputed checksum is `exp`, the received byte is `act`. -/
theorem test_val_mismatch :
    resultOf (exec (.val #v[0xFF, 0x86, 0x02, 0xBC, 0, 0, 0, 0, 0x3C]) State.reset) =
      some (.error (.checksumMismatch 0xBC 0x3C)) := by decide

/-- V-VAL-8 and V-VAL-10: the start byte wins; byte 1 is not checked. -/
theorem test_val_order :
    resultOf (exec (.val #v[0xFE, 0x01, 0x86, 0, 0, 0, 0, 0, 0x78]) State.reset) =
        some (.error .unexpectedStartByte) ∧
      resultOf (exec (.val #v[0xFF, 0x02, 0x86, 0, 0, 0, 0, 0, 0x78]) State.reset) =
        some (.okFrame #v[0xFF, 0x02, 0x86, 0, 0, 0, 0, 0, 0x78]) := by decide

/-- V-X-4: the high byte is first. -/
theorem test_xco2_big_endian :
    resultOf (exec (.xco2 #v[0, 0, 0x01, 0, 0, 0, 0, 0, 0]) State.reset) = some (.okCo2 256) := by decide

/-- V-X-3. -/
theorem test_xco2_max :
    resultOf (exec (.xco2 #v[0, 0, 0xFF, 0xFF, 0, 0, 0, 0, 0]) State.reset) =
      some (.okCo2 65535) := by decide

/-- V-X-7 (W3). -/
theorem test_xct_negative :
    resultOf (exec (.xct #v[0xFF, 0x86, 0x02, 0x3C, 0x21, 0, 0, 0, 0x1B]) State.reset) =
      some (.okCo2Temp 572 (BitVec.ofInt 16 (-7))) := by decide

/-- V-X-11: the byte is read unsigned. -/
theorem test_xct_unsigned :
    resultOf (exec (.xct #v[0xFF, 0x86, 0x02, 0x3C, 0xFF, 0, 0, 0, 0]) State.reset) =
      some (.okCo2Temp 572 215) := by decide

/-! ### The transceiver -/

/-- V-B-1. -/
theorem test_begin_from_reset :
    (nextOf (exec (.beginExchange 0x86 zeros) State.reset)).map (fun s => (s.phase, s.txFrame, s.result)) =
      some (.writing, request, some .ok) := by decide

/-- V-B-3: the accumulation is discarded. -/
theorem test_begin_discards :
    registersOf (exec (.beginExchange 0x86 zeros) (reading [0xFF, 0x86, 0x02] [])) =
      some (.writing, 0, []) := by decide

/-- V-W-3: the ninth byte, 0x79, completes the request. -/
theorem test_pwr_ninth_byte :
    (nextOf (exec .pwr (writing 8 [.transferred]))).map
        (fun s => (s.phase, s.txCount, s.outHistory, s.result)) =
      some (.reading, 9, [0x79], some .complete) := by decide

/-- V-W-4: a transport error. -/
theorem test_pwr_error :
    (nextOf (exec .pwr (writing 3 [.tErr e1]))).map
        (fun s => (s.phase, s.txCount, s.outHistory, s.result)) =
      some (.idle, 0, [], some (.error (.transport e1))) := by decide

/-- V-R-4: a wrong checksum, found on the ninth byte. -/
theorem test_prd_bad_checksum :
    (nextOf (exec .prd (reading eightBytes [.got 0x3D]))).map
        (fun s => (s.phase, s.txCount, s.rxBuf, s.result)) =
      some (.idle, 0, [], some (.error (.checksumMismatch 0x3C 0x3D))) := by decide

/-- V-R-8: no attempt while writing; the waiting byte stays. -/
theorem test_prd_while_writing :
    (nextOf (exec .prd { writing 5 [] with readAnswers := [.got 0x55] })).map
        (fun s => (s.phase, s.txCount, s.readAnswers, s.result)) =
      some (.writing, 5, [.got 0x55], some .inProgress) := by decide

/-! ### The frame commands -/

/-- W1. -/
theorem test_frame_read_co2 :
    (nextOf (exec .frameReadCo2 State.reset)).map (fun s => (s.phase, s.txFrame)) =
      some (.writing, request) := by decide

/-- V-ENC-2, as the request of a configured command. -/
theorem test_frame_read_co2_temp :
    (nextOf (exec (.frameReadCo2Temp #v[0x00, 0x00, 0x00, 0x13, 0x88]) configured)).map State.txFrame =
      some #v[0xFF, 0x01, 0x99, 0x00, 0x00, 0x00, 0x13, 0x88, 0xCB] := by decide

/-- V-ENC-3, as the request of a configured command. -/
theorem test_frame_get_firmware :
    (nextOf (exec (.frameGetFirmware #v[0xFF, 0xFF, 0xFF, 0xFF, 0xFF]) configured)).map State.txFrame =
      some #v[0xFF, 0x01, 0xFF, 0xFF, 0xFF, 0xFF, 0xFF, 0xFF, 0x05] := by decide

/-- R105 by hand: 0x01 + 0x42 + 0x02 = 0x45, and 0x100 - 0x45 = 0xBB. -/
theorem test_frame_self_calibration :
    (nextOf (exec (.frameSelfCalibration #v[2, 0, 0, 0, 0]) configured)).map State.txFrame =
      some #v[0xFF, 0x01, 0x42, 0x02, 0x00, 0x00, 0x00, 0x00, 0xBB] := by decide

/-! ### One step -/

theorem test_step_runs_operation :
    resultOf (step (State.reset.withFetchWord 8 0b111)) = some .inProgress := by decide

theorem test_step_reset_event :
    registersOf (step { writing 4 [] with events := [.reset] }) = some (.idle, 0, []) := by decide

theorem test_step_refuses_reserved :
    refusalOf (step (State.reset.withFetchWord 8 0x42)) =
      some (.undecodable (.reservedSelector 0x42)) := by decide

/-! ### Inputs that meet the statements' hypotheses -/

theorem test_hyp_StepKeepsInvariant_idle :
    State.reset.Inv ∧ ∃ t, step State.reset = .next t := ⟨by decide, _, rfl⟩

theorem test_hyp_StepKeepsInvariant_writing :
    let s := { writing 8 [.transferred] with events := [.operation (idlePorts 0b110)] }
    s.Inv ∧ ∃ t, step s = .next t := ⟨by decide, _, rfl⟩

theorem test_hyp_StepKeepsInvariant_reading :
    let s := { reading eightBytes [.got 0x3C] with events := [.operation (idlePorts 0b111)] }
    s.Inv ∧ ∃ t, step s = .next t := ⟨by decide, _, rfl⟩

theorem test_hyp_InvariantRunsNeverFault :
    (writing 8 []).Inv ∧ (reading eightBytes []).Inv ∧ State.reset.Inv := by decide

theorem test_hyp_EveryAdmittedOperationCompletes :
    (reading eightBytes []).Inv ∧
      (Instr.beginExchange 0x86 zeros).operandProblem (reading eightBytes []).cfg = none ∧
      configured.Inv ∧ (Instr.frameGetFirmware zeros).operandProblem configured.cfg = none := by decide

theorem test_hyp_OnlyInvalidRequestsAreRefused :
    exec (.enc 0x42 zeros) State.reset = .refused .commandNotInEnumeration ∧
      exec (.frameReadCo2Temp zeros) configured = .refused .payloadShapeInvalid := ⟨rfl, rfl⟩

theorem test_hyp_EncodeOperationResult :
    commandValid State.reset.cfg 0x42 = false ∧
      (commandValid State.reset.cfg 0x86 = true ∧
        payloadValid State.reset.cfg 0x86 #v[1, 0, 0, 0, 0] = false) ∧
      (commandValid State.reset.cfg 0x86 = true ∧ payloadValid State.reset.cfg 0x86 zeros = true) := by
  decide

theorem test_hyp_BeginExchangeResult :
    commandValid (writing 4 []).cfg 0x42 = false ∧
      (commandValid (writing 4 []).cfg 0x86 = true ∧
        payloadValid (writing 4 []).cfg 0x86 #v[0, 0, 0, 0, 1] = false) ∧
      (commandValid (writing 4 []).cfg 0x86 = true ∧ payloadValid (writing 4 []).cfg 0x86 zeros = true) := by
  decide

theorem test_hyp_ValidateOperationResult :
    (request.set 0 0xFE)[0] ≠ 0xFF ∧
      (request[0] = 0xFF ∧ (request.set 8 0x78)[8] ≠ checksum (request.set 8 0x78)) ∧
      (request[0] = 0xFF ∧ request[8] = checksum request) := by decide

theorem test_hyp_EncodeThenValidateRoundTrip :
    State.reset.cfg.startByte = configured.cfg.startByte ∧ commandValid configured.cfg 0x99 = true ∧
      payloadValid configured.cfg 0x99 #v[0x00, 0x00, 0x00, 0x13, 0x88] = true := by decide

/-- For `SingleBitFlipIsDetected` and `StartByteFlipIsDetected`: the bounds at their ends on a
valid frame. -/
theorem test_hyp_BitFlips :
    exec (.val request) State.reset = .next { State.reset with result := some (.okFrame request) } ∧
      (1 ≤ 1 ∧ 0 < 8) ∧ (8 < 9 ∧ 7 < 8) := ⟨rfl, by decide, by decide⟩

/-- V-VAL-11 against W2. -/
theorem test_hyp_CompensatingChangesPass :
    let g : Frame := #v[0xFF, 0x86, 0x02, 0x38, 0x04, 0, 0, 0, 0x3C]
    exec (.val response) State.reset = .next { State.reset with result := some (.okFrame response) } ∧
      g ≠ response ∧ g[0] = response[0] ∧
      (g[1].toNat + g[2].toNat + g[3].toNat + g[4].toNat + g[5].toNat + g[6].toNat + g[7].toNat +
        g[8].toNat) % 256 =
        (response[1].toNat + response[2].toNat + response[3].toNat + response[4].toNat +
          response[5].toNat + response[6].toNat + response[7].toNat + response[8].toNat) % 256 :=
  ⟨rfl, by decide⟩

theorem test_hyp_CodecOperationsAreStateless :
    isCodec (.csum response) = true ∧ (writing 4 []).cfg = (reading eightBytes []).cfg ∧
      ∃ t, exec (.csum response) (writing 4 []) = .next t := ⟨rfl, rfl, _, rfl⟩

theorem test_hyp_PollWriteResult :
    (reading [] []).phase ≠ .writing ∧
      ((writing 8 [.wouldBlock]).phase = .writing ∧ (writing 8 [.wouldBlock]).txCount.toNat < 9 ∧
        (writing 8 [.wouldBlock]).nextWriteAnswer = .wouldBlock) ∧
      ((writing 0 [.tErr e1]).phase = .writing ∧ (writing 0 [.tErr e1]).nextWriteAnswer = .tErr e1) ∧
      ((writing 7 [.transferred]).phase = .writing ∧
        (writing 7 [.transferred]).nextWriteAnswer = .transferred ∧ (writing 7 [.transferred]).txCount ≠ 8) ∧
      ((writing 8 [.transferred]).nextWriteAnswer = .transferred ∧
        (writing 8 [.transferred]).txCount = 8) := by decide

theorem test_hyp_PollReadResult :
    (writing 0 []).phase ≠ .reading ∧
      ((reading [] [.wouldBlock]).phase = .reading ∧
        (reading [] [.wouldBlock]).nextReadAnswer = .wouldBlock) ∧
      (reading [] [.tErr e1]).nextReadAnswer = .tErr e1 ∧
      ((reading (eightBytes.take 7) [.got 0]).nextReadAnswer = .got 0 ∧
        (reading (eightBytes.take 7) [.got 0]).rxBuf.length < 8) ∧
      ((reading eightBytes [.got 0x3C]).nextReadAnswer = .got 0x3C ∧
        (reading eightBytes [.got 0x3C]).rxBuf ++ [0x3C] = response.toList) := by decide

theorem test_hyp_WouldBlockPreservesState :
    ((writing 8 [.wouldBlock]).phase = .writing ∧ (writing 8 [.wouldBlock]).txCount.toNat < 9 ∧
        (writing 8 [.wouldBlock]).nextWriteAnswer = .wouldBlock) ∧
      ((reading eightBytes [.wouldBlock]).phase = .reading ∧
        (reading eightBytes [.wouldBlock]).nextReadAnswer = .wouldBlock) := by decide

theorem test_hyp_NoDoubleConsumption_ready :
    ∃ t u, exec .prd (reading eightBytes [.got 0x3C, .got 0x55]) = .next t ∧
      t.result = some (.ready response) ∧ (∀ i ∈ [Instr.csum response, .prd], startsExchange i = false) ∧
      execList [Instr.csum response, .prd] t = .next u := ⟨_, _, rfl, by decide, by decide, rfl⟩

theorem test_hyp_NoDoubleConsumption_error :
    ∃ t u, exec .prd (reading [0xFF] [.tErr e1]) = .next t ∧
      t.result = some (.error (.transport e1)) ∧ execList [] t = .next u := ⟨_, _, rfl, rfl, rfl⟩

/-- The answers of P1, steps 12 to 23. -/
def stalledReads : List ReadAnswer :=
  [.wouldBlock, .got 0xFF, .got 0x86, .got 0x02, .wouldBlock, .wouldBlock, .got 0x3C, .got 0, .got 0,
    .got 0, .got 0]

theorem stalledReads_no_error : ∀ e, ReadAnswer.tErr e ∉ stalledReads := by
  intro e h
  simp [stalledReads] at h

theorem test_hyp_ReadIsResilientToStalls :
    let s := reading [] (stalledReads ++ .got 0x3C :: [.got 0x55])
    s.phase = .reading ∧ s.rxBuf = [] ∧ s.readAnswers = stalledReads ++ .got 0x3C :: [.got 0x55] ∧
      (∀ e, ReadAnswer.tErr e ∉ stalledReads) ∧
      stalledReads.filterMap gotByte ++ [0x3C] = response.toList :=
  ⟨rfl, rfl, rfl, stalledReads_no_error, by decide⟩

/-- The answers of P1, steps 2 to 10. -/
def stalledWrites : List WriteAnswer :=
  [.transferred, .wouldBlock, .transferred, .transferred, .transferred, .transferred, .transferred,
    .transferred, .transferred]

theorem stalledWrites_no_error : ∀ e, WriteAnswer.tErr e ∉ stalledWrites := by
  intro e h
  simp [stalledWrites] at h

theorem test_hyp_WriteIsResilientToStalls :
    let s := writing 0 (stalledWrites ++ .transferred :: [])
    s.phase = .writing ∧ s.txCount = 0 ∧ s.writeAnswers = stalledWrites ++ .transferred :: [] ∧
      (∀ e, WriteAnswer.tErr e ∉ stalledWrites) ∧ stalledWrites.count .transferred = 8 :=
  ⟨rfl, rfl, rfl, stalledWrites_no_error, by decide⟩

/-- For the statements about every operation that answers a next state: `AtMostOneAttemptPerOperation`,
`PhaseTransitionsAreTheListedOnes`, `TxFrameWrittenByStartReadByPollWrite`, `TxCountChangesOnlyAsStated`,
`RxBufIsAppendOnly`, `ConfigurationAndEventsAreUntouched`, `TransportErrorIsPassedOn`,
`IntegrityErrorsAreExact` and `ResultCodesPerOperation`. -/
theorem test_hyp_ExecAnswersNext :
    (∃ t, exec .pwr (writing 8 [.transferred]) = .next t) ∧
      (∃ t, exec .pwr (writing 0 [.tErr e1]) = .next t) ∧
      (∃ t, exec .prd (reading eightBytes [.got 0x3C]) = .next t) ∧
      (∃ t, exec .prd (reading [] [.wouldBlock]) = .next t) ∧
      (∃ t, exec .frameReadCo2 (reading eightBytes []) = .next t) ∧
      startsExchange .prd = false :=
  ⟨⟨_, rfl⟩, ⟨_, rfl⟩, ⟨_, rfl⟩, ⟨_, rfl⟩, ⟨_, rfl⟩, rfl⟩

/-- The second clause of `TxFrameWrittenByStartReadByPollWrite`: two frames that agree at index `tx_count`
only. -/
theorem test_hyp_TxFrameReadAtIndex :
    (#v[1, 2, 3, 4, 5, 6, 7, 8, 0x79] : Frame)[(writing 8 []).txCount.toNat]? =
      (writing 8 []).txFrame[(writing 8 []).txCount.toNat]? := by decide

theorem test_hyp_IntegrityErrorsAreExact :
    ∃ t u, exec (.val (response.set 0 0)) State.reset = .next t ∧
      t.result = some (.error .unexpectedStartByte) ∧
      exec .prd (reading eightBytes [.got 0x3D]) = .next u ∧
      u.result = some (.error (.checksumMismatch 0x3C 0x3D)) := ⟨_, _, rfl, by decide, rfl, by decide⟩

theorem test_hyp_ErrorsLeaveTheBlockReady :
    isCodec .pwr = false ∧ ∃ t, exec .pwr (writing 3 [.tErr e1]) = .next t ∧
      t.result = some (.error (.transport e1)) ∧ commandValid (writing 3 []).cfg 0x86 = true ∧
      payloadValid (writing 3 []).cfg 0x86 zeros = true := ⟨rfl, _, rfl, rfl, by decide, by decide⟩

theorem test_hyp_NoStatusIsSticky : [Instr.pwr] ≠ [] := by decide

/-- Nineteen operations from reset, with no `WouldBlock` (R212). -/
theorem test_hyp_AnExchangeTakesNineteenOperations :
    let s := { State.reset with
      writeAnswers := List.replicate 9 .transferred, readAnswers := response.toList.map .got }
    s.IdleShape ∧ s.result = none ∧
      resultOf (execList (.frameReadCo2 :: List.replicate 9 .pwr ++ List.replicate 9 .prd) s) =
        some (.ready response) := by decide

theorem test_hyp_FrameCommandsAreBeginWithTheirCode :
    configured.cfg.cmdReadCo2Temp = some 0x99 ∧ configured.cfg.cmdGetFirmware = some 0xFF ∧
      configured.cfg.cmdSelfCalibration = some 0x42 := by decide

theorem test_hyp_FrameCommandsWithOpenCodeStart :
    (CarriesCode (.frameGetFirmware zeros) .getFirmware zeros ∧ openCode.cfg.cmdGetFirmware = none ∧
        AdmitsByName openCode.cfg .getFirmware zeros) ∧
      (CarriesCode (.frameSelfCalibration zeros) .selfCalibration zeros ∧
        AdmitsByName configured.cfg .selfCalibration zeros) :=
  ⟨⟨.inr (.inl ⟨rfl, rfl⟩), rfl, _, .head _, rfl, _, .head _, by decide⟩,
    .inr (.inr ⟨rfl, rfl⟩), _, .tail _ (.tail _ (.head _)), rfl, _, .head _, by decide⟩

theorem test_hyp_ReadCo2CommandStartsItsExchange : HasSourceValues State.reset.cfg := by decide

theorem test_hyp_DecodeOfEncodeIsIdentity :
    (Instr.csum response).Encodable Config.defaultParams ∧
      Instr.frameReadCo2.Encodable testParams ∧ (Instr.frameReadCo2Temp zeros).Encodable testParams ∧
      (Instr.frameGetFirmware zeros).Encodable testParams ∧
      (Instr.frameSelfCalibration zeros).Encodable testParams := by decide

/-- The hypotheses of `OperationsReadOnlyTheirPorts`. -/
abbrev PortsAgree (t u : Transaction) : Prop :=
  t.sel = u.sel ∧ t.sel.toNat < 8 ∧
    (t.sel = 0b000 → ∀ (k : Nat) (_ : k < 9), 1 ≤ k → k ≤ 7 → t.fin[k] = u.fin[k]) ∧
    (t.sel = 0b010 → t.fin = u.fin) ∧
    (t.sel = 0b011 → t.fin[2] = u.fin[2] ∧ t.fin[3] = u.fin[3]) ∧
    (t.sel = 0b100 → t.fin[2] = u.fin[2] ∧ t.fin[3] = u.fin[3] ∧ t.fin[4] = u.fin[4]) ∧
    (t.sel = 0b001 ∨ t.sel = 0b101 → t.cmd = u.cmd ∧ t.pl = u.pl)

theorem portsAgree_of_fin {t u : Transaction} (hs : t.sel = u.sel ∧ t.sel.toNat < 8)
    (h0 : t.sel = 0b000 → ∀ k : Fin 9, 1 ≤ k.val → k.val ≤ 7 → t.fin[k] = u.fin[k])
    (h : (t.sel = 0b010 → t.fin = u.fin) ∧
      (t.sel = 0b011 → t.fin[2] = u.fin[2] ∧ t.fin[3] = u.fin[3]) ∧
      (t.sel = 0b100 → t.fin[2] = u.fin[2] ∧ t.fin[3] = u.fin[3] ∧ t.fin[4] = u.fin[4]) ∧
      (t.sel = 0b001 ∨ t.sel = 0b101 → t.cmd = u.cmd ∧ t.pl = u.pl)) : PortsAgree t u :=
  ⟨hs.1, hs.2, fun h' k hk h1 h7 => h0 h' ⟨k, hk⟩ h1 h7, h⟩

/-- Ports that differ wherever `CSUM`, `VAL`, `XCO2`, `XCT`, `BEGIN` and `PRD` do not read. -/
theorem test_hyp_OperationsReadOnlyTheirPorts :
    PortsAgree ⟨0b000, 1, zeros, #v[9, 1, 2, 3, 4, 5, 6, 7, 9]⟩
        ⟨0b000, 2, zeros, #v[0, 1, 2, 3, 4, 5, 6, 7, 8]⟩ ∧
      PortsAgree ⟨0b010, 1, #v[1, 2, 3, 4, 5], request⟩ ⟨0b010, 2, zeros, request⟩ ∧
      PortsAgree ⟨0b011, 1, zeros, #v[9, 9, 2, 0x3C, 9, 9, 9, 9, 9]⟩ ⟨0b011, 2, zeros, response⟩ ∧
      PortsAgree ⟨0b100, 1, zeros, #v[9, 9, 2, 0x3C, 0, 9, 9, 9, 9]⟩ ⟨0b100, 2, zeros, response⟩ ∧
      PortsAgree ⟨0b101, 0x86, zeros, request⟩ ⟨0b101, 0x86, zeros, response⟩ ∧
      PortsAgree ⟨0b111, 1, zeros, request⟩ ⟨0b111, 2, #v[1, 2, 3, 4, 5], response⟩ := by
  refine ⟨?_, ?_, ?_, ?_, ?_, ?_⟩ <;> exact portsAgree_of_fin (by decide) (by decide) (by decide)

theorem test_hyp_StepRunsTheDecodedInstruction :
    let s := { State.reset with events := [.operation (idlePorts 0b110), .reset] }
    s.events = .operation (idlePorts 0b110) :: [.reset] ∧
      decode s.cfg (transactionBytes (idlePorts 0b110)) = .ok (.pwr, []) := ⟨rfl, rfl⟩

theorem test_hyp_StepWithoutAnInstruction :
    State.reset.events = [] ∧
      ({ State.reset with events := [.reset] } : State).events = .reset :: [] ∧
      ({ State.reset with events := [.operation (idlePorts 0x42)] } : State).events =
        .operation (idlePorts 0x42) :: [] ∧
      decode State.reset.cfg (transactionBytes (idlePorts 0x42)) = .error (.reservedSelector 0x42) :=
  ⟨rfl, rfl, rfl, rfl⟩

/-! ### The handle -/

/-- A host whose firmware version is byte 2 of the response, for these tests only. -/
def testHost : HostParams :=
  { payloadReadCo2Temp := #v[0x00, 0x00, 0x00, 0x13, 0x88]
    payloadGetFirmware := zeros
    fwVersionOf := fun f => f[2].toNat }

/-- A transport with these answers listed, on which four attempts were made before. -/
def line (w : List WriteAnswer) (r : List ReadAnswer) : Transport :=
  { id := 7, writeAnswers := w, readAnswers := r, attempts := 4, outHistory := [], inHistory := [] }

/-- A base handle in the read phase of composite `k`, one byte short of a frame. -/
def handleReading (k : Composite) (received : List Byte) (last : Byte) : Handle :=
  { dialect := .base, phase := .read k, block := reading received [.got last] }

/-- R162: the last poll returns the value. -/
theorem test_handle_read_co2 :
    ∃ h, Handle.call testHost .readCo2 (handleReading .readCo2 eightBytes 0x3C) = .next (h, .co2 572) ∧
      h.phase = .idle := ⟨_, rfl, rfl⟩

theorem test_hyp_UsageErrorTouchesNothing :
    Composite.upgrade ≠ .readCo2 ∧ Composite.upgrade.availableOn .base = true ∧
      (handleReading .readCo2 [] 0).phase = .read .readCo2 ∧
      (handleReading .readCo2 [] 0).dialect = .base := by
  decide

theorem test_hyp_DialectChangesOnlyByUpgrade :
    ∃ h r, Handle.call testHost .readCo2 (Handle.create Config.defaultParams (line [] [])) = .next (h, r) :=
  ⟨_, _, rfl⟩

/-- W8, at both sides of the threshold. -/
theorem test_hyp_UpgradeFollowsTheFirmwareVersion :
    (∃ t f, exec .prd (handleReading .upgrade [0xFF, 0x86, 5, 0, 0, 0, 0, 0] 0x75).block = .next t ∧
        t.result = some (.ready f) ∧ 5 ≤ testHost.fwVersionOf f) ∧
      (∃ t f, exec .prd (handleReading .upgrade [0xFF, 0x86, 4, 0, 0, 0, 0, 0] 0x76).block = .next t ∧
        t.result = some (.ready f) ∧ testHost.fwVersionOf f < 5) :=
  ⟨⟨_, _, rfl, rfl, by decide⟩, ⟨_, _, rfl, rfl, by decide⟩⟩

theorem test_hyp_HandleReturnsBlockErrorsUnchanged :
    (∃ h r, Handle.call testHost .readCo2 (handleReading .readCo2 eightBytes 0x3D) = .next (h, r) ∧
        r = .err (.block (.checksumMismatch 0x3C 0x3D))) ∧
      (∃ h r, Handle.call testHost .readCo2
          { dialect := .base, phase := .write .readCo2, block := writing 3 [.tErr e1] } = .next (h, r) ∧
        r = .err (.block (.transport e1))) := ⟨⟨_, _, rfl, rfl⟩, ⟨_, _, rfl, rfl⟩⟩

theorem test_hyp_HandleAgreesWithItsBlock :
    (handleReading .readCo2 eightBytes 0x3C).Agrees ∧
      (∃ h r, Handle.call testHost .readCo2 (handleReading .readCo2 eightBytes 0x3C) = .next (h, r)) ∧
      Composite.readCo2.availableOn .base = true :=
  ⟨by show State.ReadingShape _ ∧ _ = true; decide, ⟨_, _, rfl⟩, rfl⟩

theorem test_hyp_HandleCallsNeverFail :
    (Handle.create Config.defaultParams (line [] [])).Agrees ∧
      ({ dialect := .base, phase := .write .upgrade, block := writing 8 [] } : Handle).Agrees ∧
      Composite.upgrade.availableOn .base = true :=
  ⟨by show State.IdleShape _; decide, by show State.WritingShape _ ∧ _ = true; decide, rfl⟩

theorem test_hyp_ReadCo2EndToEnd :
    let h := Handle.create Config.defaultParams
      (line (stalledWrites ++ .transferred :: []) (stalledReads ++ .got 0x3C :: []))
    h.phase = .idle ∧ h.block.writeAnswers = stalledWrites ++ .transferred :: [] ∧
      h.block.readAnswers = stalledReads ++ .got 0x3C :: [] ∧
      (∀ e, WriteAnswer.tErr e ∉ stalledWrites) ∧ stalledWrites.count .transferred = 8 ∧
      (∀ e, ReadAnswer.tErr e ∉ stalledReads) ∧
      stalledReads.filterMap gotByte ++ [0x3C] = response.toList ∧
      response[0] = 0xFF ∧ response[8] = checksum response :=
  ⟨rfl, rfl, rfl, stalledWrites_no_error, by decide, stalledReads_no_error, by decide, by decide, by decide⟩

/-- R163, R185: a composite whose payload `PayloadValid` rules out is refused, and nothing is sent. -/
theorem test_handle_payload_refused :
    Handle.call { testHost with payloadReadCo2Temp := zeros } .readCo2Temp
        { dialect := .extended, phase := .idle, block := configured } =
      .refused (.block .payloadShapeInvalid) := by rfl

/-- R167: the transport goes back with its count of attempts. -/
theorem test_release_keeps_attempts :
    (Handle.create Config.defaultParams (line [] [.got 1])).release = line [] [.got 1] := by decide

theorem test_hyp_ResetConfigurationHasTheSourceValues :
    ∃ t, exec (.enc 0x86 zeros) State.reset = .next t ∧ t.result = some (.okFrame request) :=
  ⟨_, rfl, by decide⟩

theorem test_hyp_TransportErrorsAreCarriedUnread :
    ({ reading [] [.tErr e1] with writeAnswers := [.tErr e1] } : State).writeAnswers ≠ [] ∧
      ({ reading [] [.tErr e1] with writeAnswers := [.tErr e1] } : State).readAnswers ≠ [] := by decide

end Sys2Proof.Tests
end

section
/-! The transceiver invariant of 10_state.md R30: which updates of the state keep it or establish it, that every
operation keeps it, and the statement about `step`. -/

namespace Sys2Proof.Machine

variable {i : Instr} {s t : State}

/-! ### The shapes and the updates of the state -/

theorem State.idleShape_not_writingShape (h : s.IdleShape) : ¬s.WritingShape :=
  fun hw => nomatch h.1.symm.trans hw.1

theorem State.idleShape_not_readingShape (h : s.IdleShape) : ¬s.ReadingShape :=
  fun hr => nomatch h.1.symm.trans hr.1

theorem State.writingShape_not_readingShape (h : s.WritingShape) : ¬s.ReadingShape :=
  fun hr => nomatch h.1.symm.trans hr.1

theorem State.Inv.writingShape (h : s.Inv) (hp : s.phase = .writing) : s.WritingShape := by
  rcases h with ⟨hi, -⟩ | hw | ⟨hr, -⟩
  · exact nomatch hi.symm.trans hp
  · exact hw
  · exact nomatch hr.symm.trans hp

theorem State.Inv.readingShape (h : s.Inv) (hp : s.phase = .reading) : s.ReadingShape := by
  rcases h with ⟨hi, -⟩ | ⟨hw, -⟩ | hr
  · exact nomatch hi.symm.trans hp
  · exact nomatch hw.symm.trans hp
  · exact hr

/-- The result port is no part of the invariant. -/
theorem State.ret_inv (r : Result) (s : State) : (s.ret r).Inv ↔ s.Inv := Iff.rfl

/-- The host's pending events are no part of the invariant. -/
theorem State.withEvents_inv (s : State) (es : List HostEvent) : State.Inv { s with events := es } ↔ s.Inv :=
  Iff.rfl

/-- A write attempt moves the transport, not the registers. -/
theorem State.afterWrite_inv (b : Byte) (a : WriteAnswer) (s : State) : (s.afterWrite b a).Inv ↔ s.Inv := Iff.rfl

/-- A read attempt moves the transport, not the registers. -/
theorem State.afterRead_inv (a : ReadAnswer) (s : State) : (s.afterRead a).Inv ↔ s.Inv := Iff.rfl

theorem State.resetToIdle_idleShape (s : State) : s.resetToIdle.IdleShape := ⟨rfl, rfl, rfl⟩

theorem State.resetEvent_idleShape (s : State) : s.resetEvent.IdleShape := ⟨rfl, rfl, rfl⟩

theorem raiseFatal_idleShape (e : BlockError) (s : State) : (raiseFatal e s).IdleShape := s.resetToIdle_idleShape

theorem startExchange_writingShape (f : Frame) (s : State) : (startExchange f s).WritingShape :=
  ⟨rfl, Nat.zero_le _, rfl⟩

/-- R26: the ninth accepted byte turns the exchange to reading; before it the count stays at most 8. -/
theorem State.WritingShape.advanceTx_inv (h : s.WritingShape) : s.advanceTx.Inv := by
  obtain ⟨hp, hc, hb⟩ := h
  by_cases h9 : s.txCount + 1 = 9
  · have hread : s.advanceTx.ReadingShape := ⟨if_pos h9, h9, by simp [hb]⟩
    exact .inr (.inr hread)
  · have hcount : (s.txCount + 1).toNat ≤ 8 := by bv_omega
    have hwrite : s.advanceTx.WritingShape := ⟨(if_neg h9).trans hp, hcount, hb⟩
    exact .inr (.inl hwrite)

/-! ### Every operation keeps the invariant -/

theorem execPwr_keeps_inv (hs : s.Inv) (h : execPwr s = .next t) : t.Inv := by
  rcases execPwr_next h with ⟨-, rfl⟩ | ⟨hp, b, -, ⟨-, rfl⟩ | ⟨e, -, rfl⟩ | ⟨-, rfl⟩⟩
  · exact (State.ret_inv _ s).mpr hs
  · exact (State.afterWrite_inv b .wouldBlock s).mpr hs
  · exact .inl (raiseFatal_idleShape _ _)
  · have hw : (s.afterWrite b .transferred).WritingShape := hs.writingShape hp
    exact (State.ret_inv _ _).mpr hw.advanceTx_inv

/-- R27, R138: `PRD` ends with `rx_buf` short of nine bytes, or with the block idle and `rx_buf` empty. -/
theorem finishRead_inv (hp : s.phase = .reading) (hc : s.txCount = 9) (h : finishRead s = .next t) : t.Inv := by
  rcases finishRead_next h with ⟨hl, rfl⟩ | ⟨f, -, ⟨-, rfl⟩ | ⟨e, -, rfl⟩⟩
  · have hread : s.ReadingShape := ⟨hp, hc, Nat.le_of_lt_succ hl⟩
    exact (State.ret_inv _ s).mpr (.inr (.inr hread))
  · exact (State.ret_inv _ _).mpr (.inl s.resetToIdle_idleShape)
  · exact .inl (raiseFatal_idleShape e s)

theorem execPrd_keeps_inv (hs : s.Inv) (h : execPrd s = .next t) : t.Inv := by
  rcases execPrd_next h with ⟨-, rfl⟩ | ⟨hp, ⟨-, rfl⟩ | ⟨e, -, rfl⟩ | ⟨b, -, hf⟩⟩
  · exact (State.ret_inv _ s).mpr hs
  · exact (State.afterRead_inv .wouldBlock s).mpr hs
  · exact .inl (raiseFatal_idleShape _ _)
  · obtain ⟨-, hc, -⟩ := hs.readingShape hp
    exact finishRead_inv (s := (s.afterRead (.got b)).pushRx b) hp hc hf

theorem exec_keeps_inv (hs : s.Inv) (h : exec i s = .next t) : t.Inv := by
  rcases exec_next h with ⟨-, r, rfl⟩ | ⟨-, c, pl, rfl⟩ | ⟨-, hpwr⟩ | ⟨-, hprd⟩
  · exact (State.ret_inv r s).mpr hs
  · exact .inr (.inl (startExchange_writingShape _ s))
  · exact execPwr_keeps_inv hs hpwr
  · exact execPrd_keeps_inv hs hprd

/-! ### The step -/

/-- Everything a step can do when it answers a next state. -/
theorem step_next (h : step s = .next t) :
    (s.events = [] ∧ t = s) ∨
    (∃ rest, s.events = .reset :: rest ∧ t = State.resetEvent { s with events := rest }) ∨
    (∃ tr rest i, s.events = .operation tr :: rest ∧ decodePorts s.cfg tr = .ok i ∧
      exec i { s with events := rest } = .next t) := by
  unfold step at h
  split at h
  next he => cases h; exact .inl ⟨he, rfl⟩
  next rest he => cases h; exact .inr (.inl ⟨rest, he, rfl⟩)
  next tr rest he =>
    split at h
    next i hd => exact .inr (.inr ⟨tr, rest, i, he, hd, h⟩)
    · cases h

theorem step_keeps_inv (hs : s.Inv) (h : step s = .next t) : t.Inv := by
  rcases step_next h with ⟨-, rfl⟩ | ⟨rest, -, rfl⟩ | ⟨tr, rest, i, -, -, hexec⟩
  · exact hs
  · exact .inl (State.resetEvent_idleShape _)
  · exact exec_keeps_inv ((s.withEvents_inv rest).mpr hs) hexec

theorem exec_codec_keeps_registers (hc : isCodec i = true) (h : exec i s = .next t) :
    t.phase = s.phase ∧ t.txFrame = s.txFrame ∧ t.txCount = s.txCount ∧ t.rxBuf = s.rxBuf := by
  obtain ⟨r, rfl⟩ := exec_codec hc h
  exact ⟨s.ret_phase r, s.ret_txFrame r, s.ret_txCount r, s.ret_rxBuf r⟩

/-- Settles O3: a case analysis of what a step can do (`step_next`), with the invariant kept by each operation. -/
theorem stepKeepsInvariant : Obligations.StepKeepsInvariant := by
  unfold Obligations.StepKeepsInvariant
  refine ⟨fun s t => step_keeps_inv, fun s => ⟨?_, ?_, ?_⟩, fun i s t => exec_codec_keeps_registers⟩
  · exact fun ⟨hi, hw⟩ => State.idleShape_not_writingShape hi hw
  · exact fun ⟨hi, hr⟩ => State.idleShape_not_readingShape hi hr
  · exact fun ⟨hw, hr⟩ => State.writingShape_not_readingShape hw hr

end Sys2Proof.Machine
end

section
/-! The well-formed frames of 30_encoding.md R62, as the checksum law and as what `VAL` accepts. -/

namespace Sys2Proof.Machine

/-- R101, on `bodySum`: one byte completes the sum of bytes 1 to 7 to a multiple of 256, and it is the checksum. -/
theorem eq_checksum_iff_sum_mod (f : Frame) (b : Byte) : b = checksum f ↔ (bodySum f + b.toNat) % 256 = 0 := by
  have hb : b.toNat < 256 := b.isLt
  rw [← BitVec.toNat_inj, checksum_toNat]
  omega

theorem frameWellFormed_iff (cfg : Params) (f : Frame) :
    frameWellFormed cfg f = true ↔ f[0] = cfg.startByte ∧ f[8] = checksum f := by
  simp [frameWellFormed]

theorem frameWellFormed_iff_sum_mod (cfg : Params) (f : Frame) :
    frameWellFormed cfg f = true ↔ f[0] = cfg.startByte ∧ (bodySum f + f[8].toNat) % 256 = 0 := by
  rw [frameWellFormed_iff, eq_checksum_iff_sum_mod]

theorem validateFrame_eq_ok_iff (cfg : Params) (f : Frame) :
    validateFrame cfg f = .ok f ↔ frameWellFormed cfg f = true := by
  rw [frameWellFormed_iff]
  refine ⟨fun hok => ?_, fun ⟨hstart, hsum⟩ => validateFrame_ok hstart hsum⟩
  by_cases hstart : f[0] = cfg.startByte
  · refine ⟨hstart, Classical.byContradiction fun hsum => ?_⟩
    exact nomatch (validateFrame_mismatch hstart hsum).symm.trans hok
  · exact nomatch (validateFrame_start hstart).symm.trans hok

theorem State.ret_inj {q r : Result} {s : State} : s.ret q = s.ret r ↔ q = r :=
  ⟨fun h => Option.some.inj (congrArg State.result h), fun h => h ▸ rfl⟩

/-- `VAL` puts its operand on the result port as accepted exactly when validation accepts it: an error is never `OK`. -/
theorem exec_val_eq_ret_okFrame_iff (f : Frame) (s : State) :
    exec (.val f) s = .next (s.ret (.okFrame f)) ↔ validateFrame s.cfg f = .ok f := by
  rw [exec_val, execVal]
  cases validateFrame s.cfg f with
  | ok g => simp [State.ret_inj]
  | error e => simp [State.ret_inj, raiseError]

/-- Settles O17: the branches of validation (`validateFrame_eq_ok_iff`), and the checksum as the byte that completes
the sum (`eq_checksum_iff_sum_mod`). -/
theorem validateAcceptsExactlyWellFormed : Obligations.ValidateAcceptsExactlyWellFormed := by
  unfold Obligations.ValidateAcceptsExactlyWellFormed
  exact fun f s => ⟨(exec_val_eq_ret_okFrame_iff f s).trans (validateFrame_eq_ok_iff s.cfg f),
    frameWellFormed_iff s.cfg f, frameWellFormed_iff_sum_mod s.cfg f⟩

end Sys2Proof.Machine
end

section
/-! The frame codec of 41_codec.md: what each of its operations answers, what it reads, and which changes of a
frame `VAL` detects. -/

namespace Sys2Proof.Machine

variable {s : State} {f : Frame} {cmd : Byte} {pl : Payload}

/-! ### The checksum (R100, R101, R121) -/

/-- Settles O12: the checksum is the byte that completes the sum (`eq_checksum_iff_sum_mod`). -/
theorem checksumLaw : Obligations.ChecksumLaw := by
  unfold Obligations.ChecksumLaw
  exact fun f => eq_checksum_iff_sum_mod f f[8]

/-- Settles O7: the value of the checksum (`checksum_toNat`), which `CSUM` puts on the result port. -/
theorem checksumOperationResult : Obligations.ChecksumOperationResult := by
  unfold Obligations.ChecksumOperationResult
  exact fun f s => ⟨checksum f, checksum_toNat f, exec_csum f s⟩

theorem bodySum_set_ends (f : Frame) (a b : Byte) : bodySum ((f.set 0 a).set 8 b) = bodySum f := by
  simp [bodySum]

/-- Settles O18: the sum the checksum is made of leaves out both ends of the frame (`bodySum_set_ends`). -/
theorem checksumIgnoresFirstAndLastByte : Obligations.ChecksumIgnoresFirstAndLastByte := by
  unfold Obligations.ChecksumIgnoresFirstAndLastByte
  intro f a b s
  rw [exec_csum, exec_csum, checksum_congr (bodySum_set_ends f a b)]

/-! ### `VAL` (R107, R108) -/

theorem exec_val_start (h : f[0] ≠ s.cfg.startByte) :
    exec (.val f) s = .next (s.ret (.error .unexpectedStartByte)) := by
  simp [exec_val, execVal, validateFrame_start h, raiseError]

theorem exec_val_mismatch (h : f[0] = s.cfg.startByte) (hc : f[8] ≠ checksum f) :
    exec (.val f) s = .next (s.ret (.error (.checksumMismatch (checksum f) f[8]))) := by
  simp [exec_val, execVal, validateFrame_mismatch h hc, raiseError]

/-- The acceptance of `VAL` in the terms of R62. -/
theorem exec_val_ok_iff (f : Frame) (s : State) :
    exec (.val f) s = .next (s.ret (.okFrame f)) ↔ f[0] = s.cfg.startByte ∧ f[8] = checksum f := by
  rw [exec_val_eq_ret_okFrame_iff, validateFrame_eq_ok_iff, frameWellFormed_iff]

/-- Settles O9: one lemma per branch of validation. -/
theorem validateOperationResult : Obligations.ValidateOperationResult := by
  unfold Obligations.ValidateOperationResult
  exact fun f s => ⟨exec_val_start, exec_val_mismatch, fun h hc => (exec_val_ok_iff f s).mpr ⟨h, hc⟩⟩

/-! ### `ENC` (R105, R114) -/

theorem withRequest_invalid_command {k : Frame → State} (hc : commandValid s.cfg cmd = false) :
    withRequest cmd pl s k = .refused .commandNotInEnumeration := if_pos hc

theorem withRequest_invalid_payload {k : Frame → State} (hc : commandValid s.cfg cmd = true)
    (hp : payloadValid s.cfg cmd pl = false) : withRequest cmd pl s k = .refused .payloadShapeInvalid := by
  simp [withRequest, hc, hp]

theorem encodeFrame_startByte (cfg : Params) (cmd : Byte) (pl : Payload) :
    (encodeFrame cfg cmd pl)[0] = cfg.startByte := rfl

theorem encodeFrame_sensorIndex (cfg : Params) (cmd : Byte) (pl : Payload) :
    (encodeFrame cfg cmd pl)[1] = cfg.sensorIndex := rfl

theorem encodeFrame_command (cfg : Params) (cmd : Byte) (pl : Payload) :
    (encodeFrame cfg cmd pl)[2] = cmd := rfl

/-- R60: payload byte `k` stands at frame offset `3 + k`. -/
theorem encodeFrame_payload (cfg : Params) (cmd : Byte) (pl : Payload) (k : Nat) (hk : k < 5) :
    (encodeFrame cfg cmd pl)[3 + k] = pl[k] := by
  match k, hk with
  | 0, _ | 1, _ | 2, _ | 3, _ | 4, _ => rfl

theorem exec_enc_valid (hc : commandValid s.cfg cmd = true) (hp : payloadValid s.cfg cmd pl = true) :
    exec (.enc cmd pl) s = .next (s.ret (.okFrame (encodeFrame s.cfg cmd pl))) := by
  rw [exec_enc, withRequest_valid hc hp]

/-- Settles O8: the outcomes of a request (`withRequest_…`), and the bytes of the frame (`encodeFrame_…`). -/
theorem encodeOperationResult : Obligations.EncodeOperationResult := by
  unfold Obligations.EncodeOperationResult
  intro cmd pl s
  have hcommand (hc : commandValid s.cfg cmd = false) :=
    (exec_enc cmd pl s).trans (withRequest_invalid_command hc)
  have hpayload (hc : commandValid s.cfg cmd = true) (hp : payloadValid s.cfg cmd pl = false) :=
    (exec_enc cmd pl s).trans (withRequest_invalid_payload hc hp)
  refine ⟨hcommand, hpayload, fun hc hp => ?_⟩
  exact ⟨encodeFrame s.cfg cmd pl, encodeFrame_startByte s.cfg cmd pl, encodeFrame_sensorIndex s.cfg cmd pl,
    encodeFrame_command s.cfg cmd pl, encodeFrame_payload s.cfg cmd pl, encodeFrame_checksum s.cfg cmd pl,
    exec_enc_valid hc hp⟩

/-- Settles O13: the frame `ENC` builds starts with `START_BYTE` and ends with its checksum, which is all
`VAL` asks. -/
theorem encodeThenValidateRoundTrip : Obligations.EncodeThenValidateRoundTrip := by
  unfold Obligations.EncodeThenValidateRoundTrip
  intro cmd pl s u hstart hc hp
  have hval : exec (.val (encodeFrame s.cfg cmd pl)) u = .next (u.ret (.okFrame (encodeFrame s.cfg cmd pl))) :=
    (exec_val_ok_iff _ u).mpr
      ⟨(encodeFrame_startByte s.cfg cmd pl).trans hstart.symm, encodeFrame_checksum s.cfg cmd pl⟩
  exact ⟨encodeFrame s.cfg cmd pl, exec_enc_valid hc hp, hval⟩

/-! ### `XCO2` and `XCT` (R111, R113) -/

/-- R111: the two bytes fill the 16 bits, so nothing is cut off. -/
theorem extractCo2_toNat (f : Frame) : (extractCo2 f).toNat = f[2].toNat * 256 + f[3].toNat := by
  have hbytes : extractCo2 f = f[2].setWidth 16 * 256#16 + f[3].setWidth 16 := rfl
  rw [hbytes]
  bv_omega

/-- R113: the difference of two unsigned bytes always fits an s16. -/
theorem extractTemp_toInt (cfg : Params) (f : Frame) :
    (extractTemp cfg f).toInt = (f[4].toNat : Int) - cfg.tempOffset.toNat := by
  have hbyte : extractTemp cfg f = BitVec.ofInt 16 (f[4].toNat - cfg.tempOffset.toNat) := rfl
  have hf : f[4].toNat < 256 := f[4].isLt
  have ho : cfg.tempOffset.toNat < 256 := cfg.tempOffset.isLt
  rw [hbyte, BitVec.toInt_ofInt]
  exact Int.bmod_eq_of_le (by omega) (by omega)

/-- Settles O10: the value of the two bytes (`extractCo2_toNat`), which `XCO2` puts on the result port. -/
theorem extractCo2Result : Obligations.ExtractCo2Result := by
  unfold Obligations.ExtractCo2Result
  exact fun f s => ⟨extractCo2 f, extractCo2_toNat f, exec_xco2 f s⟩

/-- Settles O11: both values (`extractCo2_toNat`, `extractTemp_toInt`), which `XCT` puts on the result port. -/
theorem extractCo2TempResult : Obligations.ExtractCo2TempResult := by
  unfold Obligations.ExtractCo2TempResult
  intro f s
  have htemp := extractTemp_toInt s.cfg f
  have hsource : s.cfg.tempOffset = 40 → (extractTemp s.cfg f).toInt = (f[4].toNat : Int) - 40 :=
    fun h40 => by rw [htemp, h40]; rfl
  exact ⟨extractCo2 f, extractTemp s.cfg f, extractCo2_toNat f, htemp, hsource, exec_xct f s⟩

/-! ### Which changes of a frame `VAL` detects (R115 to R117) -/

/-- Settles O16: only byte 0 and the sum decide (`exec_val_ok_iff`, `eq_checksum_iff_sum_mod`), and both are as
before. -/
theorem compensatingChangesPass : Obligations.CompensatingChangesPass := by
  unfold Obligations.CompensatingChangesPass
  intro f g s hok hstart hsum
  obtain ⟨hf, hc⟩ := (exec_val_ok_iff f s).mp hok
  have hg : g[8] = checksum g :=
    (eq_checksum_iff_sum_mod g g[8]).mpr (hsum.trans ((eq_checksum_iff_sum_mod f f[8]).mp hc))
  exact (exec_val_ok_iff g s).mpr ⟨hstart.trans hf, hg⟩

theorem flipBit_ne (b : Byte) {k : Nat} (hk : k < 8) : b ^^^ (1#8 <<< k) ≠ b := by
  intro h
  have hbit := congrArg (·.getLsbD k) h
  simp [hk] at hbit

/-- Replacing one of bytes 1 to 8 moves their sum by the difference of the two bytes. -/
theorem bodySum_set_add (f : Frame) (b : Byte) (i : Nat) (hi : i < 9) (h1 : 1 ≤ i) :
    bodySum (f.set i b) + (f.set i b)[8].toNat + f[i].toNat = bodySum f + f[8].toNat + b.toNat := by
  match i, hi, h1 with
  | 1, _, _ | 2, _, _ | 3, _, _ | 4, _, _ | 5, _, _ | 6, _, _ | 7, _, _ | 8, _, _ =>
    simp [bodySum]
    omega

/-- Two different bytes never agree modulo 256, so no change of a single byte keeps the checksum. -/
theorem set_checksum_ne (hc : f[8] = checksum f) {b : Byte} {i : Nat} (hi : i < 9) (h1 : 1 ≤ i) (hb : b ≠ f[i]) :
    (f.set i b)[8] ≠ checksum (f.set i b) := by
  rw [Ne, eq_checksum_iff_sum_mod]
  rw [eq_checksum_iff_sum_mod] at hc
  have hsum := bodySum_set_add f b i hi h1
  have hne : b.toNat ≠ f[i].toNat := fun h => hb (BitVec.eq_of_toNat_eq h)
  have hold : f[i].toNat < 256 := f[i].isLt
  have hnew : b.toNat < 256 := b.isLt
  omega

/-- Settles O14: the start byte stays, and the flipped byte is another byte (`set_checksum_ne`). -/
theorem singleBitFlipIsDetected : Obligations.SingleBitFlipIsDetected := by
  unfold Obligations.SingleBitFlipIsDetected
  intro f s i k hi h1 hk hok g
  obtain ⟨hstart, hc⟩ := (exec_val_ok_iff f s).mp hok
  have hg : g[0] = s.cfg.startByte := (Vector.getElem_set_ne hi (by decide) (by omega)).trans hstart
  exact exec_val_mismatch hg (set_checksum_ne hc hi h1 (flipBit_ne f[i] hk))

/-- Settles O15: the flipped byte 0 is another byte than `START_BYTE`. -/
theorem startByteFlipIsDetected : Obligations.StartByteFlipIsDetected := by
  unfold Obligations.StartByteFlipIsDetected
  intro f s k hk hok
  obtain ⟨hstart, -⟩ := (exec_val_ok_iff f s).mp hok
  refine exec_val_start ?_
  rw [Vector.getElem_set_self, ← hstart]
  exact flipBit_ne f[0] hk

/-! ### What a codec operation reads (R122) -/

/-- What `VAL` puts on the result port, read off the configuration and the operand. -/
theorem exec_val_of_cfg (cfg : Params) (f : Frame) :
    ∃ r, ∀ s : State, s.cfg = cfg → exec (.val f) s = .next (s.ret r) := by
  by_cases hstart : f[0] = cfg.startByte
  · by_cases hc : f[8] = checksum f
    · exact ⟨_, fun s hs => (exec_val_ok_iff f s).mpr ⟨by rw [hs, hstart], hc⟩⟩
    · exact ⟨_, fun s hs => exec_val_mismatch (by rw [hs, hstart]) hc⟩
  · exact ⟨_, fun s hs => exec_val_start (by rw [hs]; exact hstart)⟩

/-- Settles O19: the result of each codec operation is made of its operands and the configuration. -/
theorem codecOperationsAreStateless : Obligations.CodecOperationsAreStateless := by
  unfold Obligations.CodecOperationsAreStateless
  intro i s u t hi hcfg h
  cases i <;> simp only [isCodec, Bool.false_eq_true] at hi
  case csum f => rw [exec_csum] at h; cases h; exact ⟨_, rfl, exec_csum f u⟩
  case enc cmd pl =>
    rw [exec_enc] at h
    obtain ⟨hc, hp, ht⟩ := withRequest_next h
    rw [hcfg] at hc hp ht
    exact ⟨_, ht, exec_enc_valid hc hp⟩
  case val f =>
    obtain ⟨r, hr⟩ := exec_val_of_cfg s.cfg f
    rw [hr s rfl] at h
    cases h
    exact ⟨r, rfl, hr u hcfg.symm⟩
  case xco2 f => rw [exec_xco2] at h; cases h; exact ⟨_, rfl, exec_xco2 f u⟩
  case xct f => rw [exec_xct, hcfg] at h; cases h; exact ⟨_, rfl, exec_xct f u⟩

end Sys2Proof.Machine
end

section
/-! The transceiver of 42_transceiver.md: what `BEGIN` answers, what each poll answers to each answer of the
transport, and that an ended exchange leaves an idle block which only a new start wakes. -/

namespace Sys2Proof.Machine

variable {i : Instr} {s t u : State} {cmd : Byte} {pl : Payload}

/-! ### `BEGIN` (R134) -/

theorem exec_beginExchange_valid (hc : commandValid s.cfg cmd = true) (hp : payloadValid s.cfg cmd pl = true) :
    exec (.beginExchange cmd pl) s = .next (startExchange (encodeFrame s.cfg cmd pl) s) :=
  (exec_beginExchange cmd pl s).trans (requestExchange_valid hc hp)

/-- Settles O20: the outcomes of a request (`withRequest_…`), and the bytes of the frame (`encodeFrame_…`). -/
theorem beginExchangeResult : Obligations.BeginExchangeResult := by
  unfold Obligations.BeginExchangeResult
  intro cmd pl s
  have hcommand (hc : commandValid s.cfg cmd = false) :=
    (exec_beginExchange cmd pl s).trans (withRequest_invalid_command hc)
  have hpayload (hc : commandValid s.cfg cmd = true) (hp : payloadValid s.cfg cmd pl = false) :=
    (exec_beginExchange cmd pl s).trans (withRequest_invalid_payload hc hp)
  refine ⟨hcommand, hpayload, fun hc hp => ?_⟩
  exact ⟨encodeFrame s.cfg cmd pl, encodeFrame_startByte s.cfg cmd pl, encodeFrame_sensorIndex s.cfg cmd pl,
    encodeFrame_command s.cfg cmd pl, encodeFrame_payload s.cfg cmd pl, encodeFrame_checksum s.cfg cmd pl,
    exec_beginExchange_valid hc hp⟩

/-! ### `PWR`, answer by answer (R136) -/

theorem exec_pwr_of_not_writing (hp : s.phase ≠ .writing) : exec .pwr s = .next (s.ret .complete) := by
  rw [exec_pwr, execPwr, if_neg hp]

theorem exec_pwr_wouldBlock (hp : s.phase = .writing) (hc : s.txCount.toNat < 9)
    (ha : s.nextWriteAnswer = .wouldBlock) :
    exec .pwr s = .next ((s.afterWrite s.txFrame[s.txCount.toNat] .wouldBlock).ret .inProgress) := by
  simp [exec_pwr, execPwr, hp, hc, tryWrite, ha]

theorem exec_pwr_tErr {e : TransportErrorT} (hp : s.phase = .writing) (hc : s.txCount.toNat < 9)
    (ha : s.nextWriteAnswer = .tErr e) :
    exec .pwr s = .next
      (raiseFatal (.transport e) (s.afterWrite s.txFrame[s.txCount.toNat] (.tErr e))) := by
  simp [exec_pwr, execPwr, hp, hc, tryWrite, ha]

theorem exec_pwr_transferred (hp : s.phase = .writing) (hc : s.txCount.toNat < 9)
    (ha : s.nextWriteAnswer = .transferred) :
    exec .pwr s = .next ((s.afterWrite s.txFrame[s.txCount.toNat] .transferred).advanceTx.ret
      (if s.txCount + 1 = 9 then .complete else .inProgress)) := by
  simp only [exec_pwr, execPwr, hp, if_true, Vector.getElem?_eq_getElem hc, tryWrite, ha]
  rfl

/-- The four bits of `tx_count` do not wrap before nine. -/
theorem txCount_add_one_eq_nine_iff (c : BitVec 4) : c + 1 = 9 ↔ c = 8 := by bv_omega

/-- Settles O21: one lemma per answer; the count after the ninth byte is `txCount_add_one_eq_nine_iff`. -/
theorem pollWriteResult : Obligations.PollWriteResult := by
  unfold Obligations.PollWriteResult
  refine fun s => ⟨exec_pwr_of_not_writing, fun hp hc =>
    ⟨exec_pwr_wouldBlock hp hc, fun e => exec_pwr_tErr hp hc, fun ha => ?_⟩⟩
  rw [exec_pwr_transferred hp hc ha]
  simp only [State.advanceTx, State.afterWrite, State.ret, txCount_add_one_eq_nine_iff, hp]

/-! ### `PRD`, answer by answer (R138) -/

theorem exec_prd_of_not_reading (hp : s.phase ≠ .reading) : exec .prd s = .next (s.ret .inProgress) := by
  rw [exec_prd, execPrd, if_neg hp]

theorem exec_prd_wouldBlock (hp : s.phase = .reading) (ha : s.nextReadAnswer = .wouldBlock) :
    exec .prd s = .next ((s.afterRead .wouldBlock).ret .inProgress) := by
  simp [exec_prd, execPrd, hp, tryRead, ha]

theorem exec_prd_tErr {e : TransportErrorT} (hp : s.phase = .reading) (ha : s.nextReadAnswer = .tErr e) :
    exec .prd s = .next (raiseFatal (.transport e) (s.afterRead (.tErr e))) := by
  simp [exec_prd, execPrd, hp, tryRead, ha]

theorem exec_prd_got {b : Byte} (hp : s.phase = .reading) (ha : s.nextReadAnswer = .got b) :
    exec .prd s = finishRead ((s.afterRead (.got b)).pushRx b) := by
  simp [exec_prd, execPrd, hp, tryRead, ha]

theorem finishRead_short (h : s.rxBuf.length < 9) : finishRead s = .next (s.ret .inProgress) := if_pos h

/-- R138: nine bytes end the exchange, with the checks of `VAL` in their order and `READY` where both pass. -/
theorem finishRead_full {f : Frame} (h : s.rxBuf = f.toList) :
    finishRead s = .next (s.resetToIdle.ret
      (if f[0] ≠ s.cfg.startByte then .error .unexpectedStartByte
       else if f[8] ≠ checksum f then .error (.checksumMismatch (checksum f) f[8])
       else .ready f)) := by
  have hlen : ¬s.rxBuf.length < 9 := by simp [h]
  rw [finishRead, if_neg hlen, h, frameOfBytes_toList]
  by_cases hstart : f[0] = s.cfg.startByte
  · by_cases hc : f[8] = checksum f
    · simp [validateFrame_ok hstart hc, hstart, hc]
    · simp [validateFrame_mismatch hstart hc, hstart, hc, raiseFatal, raiseError]
  · simp [validateFrame_start hstart, hstart, raiseFatal, raiseError]

/-- Settles O22: one lemma per answer; a byte goes into `rx_buf`, and `finishRead_short` or `finishRead_full`
says the rest. -/
theorem pollReadResult : Obligations.PollReadResult := by
  unfold Obligations.PollReadResult
  refine fun s => ⟨exec_prd_of_not_reading, fun hp =>
    ⟨exec_prd_wouldBlock hp, fun e => exec_prd_tErr hp, fun b ha => ⟨fun hl => ?_, fun f hf => ?_⟩⟩⟩
  · have hshort : ((s.afterRead (.got b)).pushRx b).rxBuf.length < 9 := by
      rw [State.pushRx_rxBuf, List.length_append]
      exact Nat.succ_lt_succ hl
    exact (exec_prd_got hp ha).trans (finishRead_short hshort)
  · have hfull : ((s.afterRead (.got b)).pushRx b).rxBuf = f.toList := hf
    exact (exec_prd_got hp ha).trans (finishRead_full hfull)

/-! ### A poll that would block (R139) -/

/-- Settles O23: the would-block answer of each poll moves the transport on and touches nothing else. -/
theorem wouldBlockPreservesState : Obligations.WouldBlockPreservesState := by
  unfold Obligations.WouldBlockPreservesState
  rintro i s (⟨rfl, hp, hc, ha⟩ | ⟨rfl, hp, ha⟩)
  · exact ⟨_, exec_pwr_wouldBlock hp hc ha, rfl, rfl, rfl, rfl, rfl, rfl, rfl⟩
  · exact ⟨_, exec_prd_wouldBlock hp ha, rfl, rfl, rfl, rfl, rfl, rfl, rfl⟩

/-! ### The end of an exchange (R140, R146) -/

theorem finishRead_idleShape_or_inProgress (h : finishRead s = .next t) :
    t.IdleShape ∨ t.result = some .inProgress := by
  rcases finishRead_next h with ⟨-, rfl⟩ | ⟨f, -, ⟨-, rfl⟩ | ⟨e, -, rfl⟩⟩
  · exact .inr rfl
  · exact .inl s.resetToIdle_idleShape
  · exact .inl (raiseFatal_idleShape e s)

/-- R138: a `PRD` that ends an exchange, in whatever way, leaves the block idle. -/
theorem exec_prd_idleShape_or_inProgress (h : exec .prd s = .next t) :
    t.IdleShape ∨ t.result = some .inProgress := by
  rcases execPrd_next h with ⟨-, rfl⟩ | ⟨-, ⟨-, rfl⟩ | ⟨e, -, rfl⟩ | ⟨b, -, hf⟩⟩
  · exact .inr rfl
  · exact .inr rfl
  · exact .inl (raiseFatal_idleShape _ _)
  · exact finishRead_idleShape_or_inProgress hf

/-- R136: `PWR` leaves the block idle where the transport fails, and returns no other error. -/
theorem exec_pwr_idleShape_of_error {e : BlockError} (h : exec .pwr s = .next t)
    (hr : t.result = some (.error e)) : t.IdleShape := by
  rcases execPwr_next h with ⟨-, rfl⟩ | ⟨-, b, -, ⟨-, rfl⟩ | ⟨e', -, rfl⟩ | ⟨-, rfl⟩⟩
  · cases hr
  · cases hr
  · exact raiseFatal_idleShape _ _
  · rw [State.ret_result] at hr
    split at hr <;> cases hr

/-- R180: of the operations that are no codec operation, only the polls return an error, and the block is idle
after it. -/
theorem exec_idleShape_of_error {e : BlockError} (hi : isCodec i = false) (h : exec i s = .next t)
    (hr : t.result = some (.error e)) : t.IdleShape := by
  rcases exec_next h with ⟨hc, -⟩ | ⟨-, c, pl, rfl⟩ | ⟨rfl, hpwr⟩ | ⟨rfl, hprd⟩
  · cases hi.symm.trans hc
  · cases hr
  · exact exec_pwr_idleShape_of_error hpwr hr
  · exact (exec_prd_idleShape_or_inProgress hprd).resolve_right (by simp [hr])

theorem finishRead_keeps_cfg (h : finishRead s = .next t) : t.cfg = s.cfg := by
  rcases finishRead_next h with ⟨-, rfl⟩ | ⟨f, -, ⟨-, rfl⟩ | ⟨e, -, rfl⟩⟩ <;> rfl

/-- R204: no operation changes the configuration. -/
theorem exec_keeps_cfg (h : exec i s = .next t) : t.cfg = s.cfg := by
  rcases exec_next h with ⟨-, r, rfl⟩ | ⟨-, c, pl, rfl⟩ | ⟨-, hpwr⟩ | ⟨-, hprd⟩
  · rfl
  · rfl
  · rcases execPwr_next hpwr with ⟨-, rfl⟩ | ⟨-, b, -, ⟨-, rfl⟩ | ⟨e, -, rfl⟩ | ⟨-, rfl⟩⟩ <;> rfl
  · rcases execPrd_next hprd with ⟨-, rfl⟩ | ⟨-, ⟨-, rfl⟩ | ⟨e, -, rfl⟩ | ⟨b, -, hf⟩⟩
    · rfl
    · rfl
    · rfl
    · exact finishRead_keeps_cfg (s := (s.afterRead (.got b)).pushRx b) hf

/-- Settles O36: the block is idle after the error (`exec_idleShape_of_error`), and its configuration, which alone
decides whether `BEGIN` is admitted, is as before (`exec_keeps_cfg`). -/
theorem errorsLeaveTheBlockReady : Obligations.ErrorsLeaveTheBlockReady := by
  unfold Obligations.ErrorsLeaveTheBlockReady
  intro i s t e hi h hr
  refine ⟨exec_idleShape_of_error hi h hr, fun cmd pl hc hp => ?_⟩
  rw [← exec_keeps_cfg h] at hc hp
  exact ⟨_, exec_beginExchange_valid hc hp, startExchange_writingShape _ t, rfl⟩

/-! ### The idle block until the next start (R140) -/

/-- On an idle block, an operation that starts no exchange writes the result port only. -/
theorem exec_of_idle (hp : s.phase = .idle) (hi : startsExchange i = false) (h : exec i s = .next t) :
    ∃ r, t = s.ret r := by
  rcases exec_next h with ⟨-, hret⟩ | ⟨hs, -⟩ | ⟨rfl, -⟩ | ⟨rfl, -⟩
  · exact hret
  · cases hi.symm.trans hs
  · rw [exec_pwr_of_not_writing (by simp [hp])] at h
    cases h
    exact ⟨_, rfl⟩
  · rw [exec_prd_of_not_reading (by simp [hp])] at h
    cases h
    exact ⟨_, rfl⟩

theorem execList_cons_next {ops : List Instr} (h : execList (i :: ops) s = .next u) :
    ∃ t, exec i s = .next t ∧ execList ops t = .next u := by
  rw [execList] at h
  split at h
  next t ht => exact ⟨t, ht, h⟩
  · cases h
  · cases h

theorem execList_of_idle {ops : List Instr} (hp : s.phase = .idle) (hops : ∀ i ∈ ops, startsExchange i = false)
    (h : execList ops s = .next u) : ∃ r, u = { s with result := r } := by
  induction ops generalizing s with
  | nil => cases h; exact ⟨_, rfl⟩
  | cons i ops ih =>
    obtain ⟨hi, hrest⟩ := List.forall_mem_cons.mp hops
    obtain ⟨t, ht, hu⟩ := execList_cons_next h
    obtain ⟨r, rfl⟩ := exec_of_idle hp hi ht
    obtain ⟨q, rfl⟩ := ih (s := s.ret r) hp hrest hu
    exact ⟨q, rfl⟩

/-- Settles O24: the `PRD` leaves the block idle (`exec_prd_idleShape_or_inProgress`), and nothing but its result
port changes before the next start (`execList_of_idle`). -/
theorem noDoubleConsumption : Obligations.NoDoubleConsumption := by
  unfold Obligations.NoDoubleConsumption
  intro s t u ops h hr hops hu
  have hended : t.result ≠ some .inProgress := by
    rcases hr with ⟨f, hf⟩ | ⟨e, he⟩
    · simp [hf]
    · simp [he]
  have hidle : t.IdleShape := (exec_prd_idleShape_or_inProgress h).resolve_right hended
  obtain ⟨r, rfl⟩ := execList_of_idle hidle.1 hops hu
  have hnot : t.phase ≠ .reading := by simp [hidle.1]
  exact ⟨hidle, hidle, rfl, rfl, exec_prd_of_not_reading (s := { t with result := r }) hnot⟩

end Sys2Proof.Machine
end

section
/-! The handle of 43_host_boundary.md: what a call of its machine answers. -/

namespace Sys2Proof.Machine

variable {h : Handle} {j k : Composite}

/-! ### A call of another composite (R165) -/

theorem Handle.call_of_write_ne (hp : HostParams) (ha : j.availableOn h.dialect = true) (hw : h.phase = .write k)
    (hne : k ≠ j) : Handle.call hp j h = .next (h, .err .usageError) := by
  simp only [Handle.call, ha, hw, if_neg hne, Bool.true_eq_false, if_false]

theorem Handle.call_of_read_ne (hp : HostParams) (ha : j.availableOn h.dialect = true) (hr : h.phase = .read k)
    (hne : k ≠ j) : Handle.call hp j h = .next (h, .err .usageError) := by
  simp only [Handle.call, ha, hr, if_neg hne, Bool.true_eq_false, if_false]

/-- Settles O48: in either phase of an exchange, a call of another composite answers before any block operation
is issued. -/
theorem usageErrorTouchesNothing : Obligations.UsageErrorTouchesNothing := by
  unfold Obligations.UsageErrorTouchesNothing
  intro hp h j k hne ha hphase
  rcases hphase with hw | hr
  · exact Handle.call_of_write_ne hp ha hw hne.symm
  · exact Handle.call_of_read_ne hp ha hr hne.symm

end Sys2Proof.Machine
end

section
/-! The errors of 60_exceptions.md: what the result of an operation is when it is an error, and exactly when an
operation raises it. -/

namespace Sys2Proof.Machine

variable {cfg : Params} {i : Instr} {s t : State} {e : BlockError} {f : Frame}

/-! ### The errors of validation (R182, R183) -/

/-- Everything validation can answer with an error. -/
theorem validateFrame_error (h : validateFrame cfg f = .error e) :
    (f[0] ≠ cfg.startByte ∧ e = .unexpectedStartByte) ∨
    (f[0] = cfg.startByte ∧ f[8] ≠ checksum f ∧ e = .checksumMismatch (checksum f) f[8]) := by
  by_cases hstart : f[0] = cfg.startByte
  · by_cases hc : f[8] = checksum f
    · exact nomatch (validateFrame_ok hstart hc).symm.trans h
    · exact .inr ⟨hstart, hc, (Except.error.inj ((validateFrame_mismatch hstart hc).symm.trans h)).symm⟩
  · exact .inl ⟨hstart, (Except.error.inj ((validateFrame_start hstart).symm.trans h)).symm⟩

theorem validateFrame_ne_transport (e : TransportErrorT) : validateFrame cfg f ≠ .error (.transport e) := by
  intro h
  rcases validateFrame_error h with ⟨-, he⟩ | ⟨-, -, he⟩ <;> cases he

theorem validateFrame_eq_start_iff :
    validateFrame cfg f = .error .unexpectedStartByte ↔ f[0] ≠ cfg.startByte := by
  refine ⟨fun h => ?_, validateFrame_start⟩
  rcases validateFrame_error h with ⟨hstart, -⟩ | ⟨-, -, he⟩
  · exact hstart
  · cases he

theorem validateFrame_eq_mismatch_iff {x a : Byte} :
    validateFrame cfg f = .error (.checksumMismatch x a) ↔
      f[0] = cfg.startByte ∧ f[8] ≠ checksum f ∧ x = checksum f ∧ a = f[8] := by
  constructor
  · intro h
    rcases validateFrame_error h with ⟨-, he⟩ | ⟨hstart, hc, he⟩
    · cases he
    · cases he; exact ⟨hstart, hc, rfl, rfl⟩
  · rintro ⟨hstart, hc, rfl, rfl⟩
    exact validateFrame_mismatch hstart hc

/-! ### Which operation raises an error, and when (R181, R182) -/

/-- R181: the operation's own transport attempt is answered with this error. -/
def AttemptFails (i : Instr) (s : State) (e : TransportErrorT) : Prop :=
  (i = .pwr ∧ s.phase = .writing ∧ s.nextWriteAnswer = .tErr e) ∨
    (i = .prd ∧ s.phase = .reading ∧ s.nextReadAnswer = .tErr e)

/-- The two ways an operation raises an error: its attempt fails, or the frame it validates is ruled out. -/
def Raises (i : Instr) (s : State) (e : BlockError) : Prop :=
  (∃ te, AttemptFails i s te ∧ e = .transport te) ∨ ∃ f, Validates i s f ∧ validateFrame s.cfg f = .error e

theorem raises_val_iff : Raises (.val f) s e ↔ validateFrame s.cfg f = .error e := by
  simp [Raises, AttemptFails, Validates]

theorem raises_pwr_iff :
    Raises .pwr s e ↔ s.phase = .writing ∧ ∃ te, s.nextWriteAnswer = .tErr te ∧ e = .transport te := by
  simp [Raises, AttemptFails, Validates, and_assoc]

theorem raises_prd_of_not_reading (hp : s.phase ≠ .reading) : ¬Raises .prd s e := by
  simp [Raises, AttemptFails, Validates, hp]

theorem raises_prd_wouldBlock (ha : s.nextReadAnswer = .wouldBlock) : ¬Raises .prd s e := by
  simp [Raises, AttemptFails, Validates, ha]

theorem raises_prd_tErr_iff {te : TransportErrorT} (hp : s.phase = .reading) (ha : s.nextReadAnswer = .tErr te) :
    Raises .prd s e ↔ e = .transport te := by
  simp [Raises, AttemptFails, Validates, hp, ha]

theorem raises_prd_got_iff {b : Byte} (hp : s.phase = .reading) (ha : s.nextReadAnswer = .got b) :
    Raises .prd s e ↔ ∃ f : Frame, s.rxBuf ++ [b] = f.toList ∧ validateFrame s.cfg f = .error e := by
  simp [Raises, AttemptFails, Validates, hp, ha]

/-- The operations that have no error of their own. -/
theorem not_raises (hval : ∀ f, i ≠ .val f) (hpwr : i ≠ .pwr) (hprd : i ≠ .prd) : ¬Raises i s e := by
  simp [Raises, AttemptFails, Validates, hval, hpwr, hprd]

/-! ### An error is on the result port exactly when the operation raises it -/

theorem exec_val_error_iff (h : exec (.val f) s = .next t) :
    t.result = some (.error e) ↔ Raises (.val f) s e := by
  rw [raises_val_iff]
  rw [exec_val, execVal] at h
  split at h
  next g hg => cases h; simp [hg]
  next e' he => cases h; simp [he, raiseError]

theorem exec_pwr_error_iff (h : exec .pwr s = .next t) : t.result = some (.error e) ↔ Raises .pwr s e := by
  rw [raises_pwr_iff]
  rcases execPwr_next h with ⟨hp, rfl⟩ | ⟨hp, b, -, ⟨ha, rfl⟩ | ⟨te, ha, rfl⟩ | ⟨ha, rfl⟩⟩
  · simp [hp]
  · simp [ha]
  · simp [hp, ha, raiseFatal, raiseError, eq_comm]
  · rw [State.ret_result]
    split <;> simp [ha]

theorem finishRead_error_iff (h : finishRead s = .next t) :
    t.result = some (.error e) ↔ ∃ f : Frame, s.rxBuf = f.toList ∧ validateFrame s.cfg f = .error e := by
  rcases finishRead_next h with ⟨hl, rfl⟩ | ⟨f, hf, ⟨hok, rfl⟩ | ⟨e', herr, rfl⟩⟩
  · have hnone (f : Frame) : s.rxBuf ≠ f.toList := fun hf => by simp [hf] at hl
    simp [hnone]
  · simp [hf, Vector.toList_inj, hok]
  · simp [hf, Vector.toList_inj, herr, raiseFatal, raiseError]

theorem exec_prd_error_iff (h : exec .prd s = .next t) : t.result = some (.error e) ↔ Raises .prd s e := by
  rcases execPrd_next h with ⟨hp, rfl⟩ | ⟨hp, ⟨ha, rfl⟩ | ⟨te, ha, rfl⟩ | ⟨b, ha, hf⟩⟩
  · simp [raises_prd_of_not_reading hp]
  · simp [raises_prd_wouldBlock ha]
  · simp [raises_prd_tErr_iff hp ha, raiseFatal, raiseError, eq_comm]
  · rw [raises_prd_got_iff hp ha]
    exact finishRead_error_iff (s := (s.afterRead (.got b)).pushRx b) hf

theorem exec_result_ne_error (hval : ∀ f, i ≠ .val f) (hpwr : i ≠ .pwr) (hprd : i ≠ .prd)
    (h : exec i s = .next t) : t.result ≠ some (.error e) := by
  rcases exec_next h with ⟨hc, -⟩ | ⟨-, c, pl, rfl⟩ | ⟨hi, -⟩ | ⟨hi, -⟩
  · cases i <;> simp only [isCodec, Bool.false_eq_true] at hc
    case csum => rw [exec_csum] at h; cases h; simp
    case enc => rw [exec_enc] at h; obtain ⟨-, -, rfl⟩ := withRequest_next h; simp
    case val f => exact absurd rfl (hval f)
    case xco2 => rw [exec_xco2] at h; cases h; simp
    case xct => rw [exec_xct] at h; cases h; simp
  · simp [startExchange]
  · exact absurd hi hpwr
  · exact absurd hi hprd

theorem exec_error_iff (h : exec i s = .next t) : t.result = some (.error e) ↔ Raises i s e := by
  by_cases hval : ∃ f, i = .val f
  · obtain ⟨f, rfl⟩ := hval
    exact exec_val_error_iff h
  by_cases hpwr : i = .pwr
  · subst hpwr
    exact exec_pwr_error_iff h
  by_cases hprd : i = .prd
  · subst hprd
    exact exec_prd_error_iff h
  have hother := not_exists.mp hval
  exact iff_of_false (exec_result_ne_error hother hpwr hprd h) (not_raises hother hpwr hprd)

/-! ### The kinds of error (R181, R182, R183) -/

theorem raises_transport_iff {te : TransportErrorT} : Raises i s (.transport te) ↔ AttemptFails i s te := by
  simp [Raises, validateFrame_ne_transport]

theorem raises_start_iff :
    Raises i s .unexpectedStartByte ↔ ∃ f, Validates i s f ∧ f[0] ≠ s.cfg.startByte := by
  simp [Raises, validateFrame_eq_start_iff]

theorem raises_mismatch_iff {x a : Byte} :
    Raises i s (.checksumMismatch x a) ↔
      ∃ f, Validates i s f ∧ f[0] = s.cfg.startByte ∧ f[8] ≠ checksum f ∧ x = checksum f ∧ a = f[8] := by
  simp [Raises, validateFrame_eq_mismatch_iff]

theorem AttemptFails.isCodec_eq_false {te : TransportErrorT} (h : AttemptFails i s te) : isCodec i = false := by
  rcases h with ⟨rfl, -⟩ | ⟨rfl, -⟩ <;> rfl

/-- Settles O34: an error is the result exactly when it is raised (`exec_error_iff`), validation raises no transport
error (`raises_transport_iff`), and after an error of a poll the block is idle (`exec_idleShape_of_error`). -/
theorem transportErrorIsPassedOn : Obligations.TransportErrorIsPassedOn := by
  unfold Obligations.TransportErrorIsPassedOn
  intro i s t te h
  have hraised : t.result = some (.error (.transport te)) ↔ AttemptFails i s te :=
    (exec_error_iff h).trans raises_transport_iff
  exact ⟨hraised, fun hr => exec_idleShape_of_error (hraised.mp hr).isCodec_eq_false h hr⟩

/-- Settles O35: an error is the result exactly when it is raised (`exec_error_iff`), and only validation raises these
two, each on the frames it answers with that error (`raises_start_iff`, `raises_mismatch_iff`). -/
theorem integrityErrorsAreExact : Obligations.IntegrityErrorsAreExact := by
  unfold Obligations.IntegrityErrorsAreExact
  exact fun i s t h =>
    ⟨(exec_error_iff h).trans raises_start_iff, fun x a => (exec_error_iff h).trans raises_mismatch_iff⟩

end Sys2Proof.Machine
end

section
/-! Reset, 70_reset_and_hazards.md section 1: the state it leaves, and what the first polls answer there. -/

namespace Sys2Proof.Machine

/-- The reset state is idle whatever `tx_frame`, which reset leaves unspecified (R201), holds. -/
theorem State.resetWith_idleShape (cfg : Params) (f : Frame) :
    State.IdleShape { State.resetWith cfg with txFrame := f } := ⟨rfl, rfl, rfl⟩

/-- Settles O1: the reset state is idle (`State.resetWith_idleShape`), so neither poll is in the phase in which it
makes an attempt (`exec_prd_of_not_reading`, `exec_pwr_of_not_writing`). -/
theorem resetLeavesTheBlockIdle : Obligations.ResetLeavesTheBlockIdle := by
  unfold Obligations.ResetLeavesTheBlockIdle
  intro cfg f s
  obtain ⟨hphase, hcount, hbuf⟩ : s.IdleShape := State.resetWith_idleShape cfg f
  have hprd : s.phase ≠ .reading := by simp [hphase]
  have hpwr : s.phase ≠ .writing := by simp [hphase]
  exact ⟨hphase, hcount, hbuf, rfl, exec_prd_of_not_reading hprd, exec_pwr_of_not_writing hpwr⟩

end Sys2Proof.Machine
end

section
/-! The encoding of 30_encoding.md section 3: the transaction an instruction is encoded as, what its bytes decode to,
which ports an operation reads, and the packed ports of 20_memory.md R45. -/

namespace Sys2Proof.Machine

variable {cfg : Params} {t u : Transaction}

/-! ### The bytes of a transaction -/

theorem transactionOfBytes_transactionBytes (t : Transaction) (rest : List Byte) :
    transactionOfBytes (transactionBytes t ++ rest) = some (t, rest) := by
  obtain ⟨sel, cmd, ⟨⟨pl⟩, hpl⟩, ⟨⟨fin⟩, hfin⟩⟩ := t
  match pl, hpl, fin, hfin with
  | [_, _, _, _, _], _, [_, _, _, _, _, _, _, _, _], _ => rfl

theorem decode_transactionBytes_ok {i : Instr} (rest : List Byte) (h : decodePorts cfg t = .ok i) :
    decode cfg (transactionBytes t ++ rest) = .ok (i, rest) := by
  rw [decode, transactionOfBytes_transactionBytes]
  simp only [h]

theorem decode_transactionBytes_error {e : DecodeError} (rest : List Byte) (h : decodePorts cfg t = .error e) :
    decode cfg (transactionBytes t ++ rest) = .error e := by
  rw [decode, transactionOfBytes_transactionBytes]
  simp only [h]

/-! ### The frame commands' selectors (log 7) -/

theorem checkSelector_eq_none_iff {code : Option Byte} {taken : List (Option Byte)} :
    checkSelector code taken = none ↔ ∃ c, code = some c ∧ 8 ≤ c.toNat ∧ some c ∉ taken := by
  cases code <;> simp [checkSelector]

/-- A selector byte that is no `op` value is looked up among the codes of the frame commands. -/
theorem decodePorts_of_code (h : 8 ≤ t.sel.toNat) :
    decodePorts cfg t =
      if t.sel = cfg.cmdReadCo2 then .ok .frameReadCo2
      else if some t.sel = cfg.cmdReadCo2Temp then .ok (.frameReadCo2Temp t.pl)
      else if some t.sel = cfg.cmdGetFirmware then .ok (.frameGetFirmware t.pl)
      else if some t.sel = cfg.cmdSelfCalibration then .ok (.frameSelfCalibration t.pl)
      else .error (.reservedSelector t.sel) := by
  have hop (k : Byte) (hk : k.toNat < 8) : t.sel ≠ k := by rintro rfl; omega
  rw [decodePorts]
  iterate 8 rw [if_neg (hop _ (by decide))]

theorem decodePorts_frameReadCo2 (h : checkSelector (some cfg.cmdReadCo2) [] = none) :
    decodePorts cfg (idlePorts cfg.cmdReadCo2) = .ok .frameReadCo2 := by
  obtain ⟨c, hc, h8, -⟩ := checkSelector_eq_none_iff.mp h
  cases hc
  rw [decodePorts_of_code h8]
  exact if_pos rfl

theorem decodePorts_frameReadCo2Temp {c : Byte} (pl : Payload) (hc : cfg.cmdReadCo2Temp = some c)
    (h8 : 8 ≤ c.toNat) (hfree : some c ∉ [some cfg.cmdReadCo2]) :
    decodePorts cfg { idlePorts c with pl := pl } = .ok (.frameReadCo2Temp pl) := by
  rw [decodePorts_of_code h8]
  simp only [List.mem_cons, List.not_mem_nil, or_false, Option.some.injEq] at hfree
  simp [idlePorts, hfree, hc]

theorem decodePorts_frameGetFirmware {c : Byte} (pl : Payload) (hc : cfg.cmdGetFirmware = some c)
    (h8 : 8 ≤ c.toNat) (hfree : some c ∉ [some cfg.cmdReadCo2, cfg.cmdReadCo2Temp]) :
    decodePorts cfg { idlePorts c with pl := pl } = .ok (.frameGetFirmware pl) := by
  rw [decodePorts_of_code h8]
  simp only [List.mem_cons, List.not_mem_nil, or_false, not_or, Option.some.injEq] at hfree
  simp [idlePorts, hfree, hc]

theorem decodePorts_frameSelfCalibration {c : Byte} (pl : Payload) (hc : cfg.cmdSelfCalibration = some c)
    (h8 : 8 ≤ c.toNat) (hfree : some c ∉ [some cfg.cmdReadCo2, cfg.cmdReadCo2Temp, cfg.cmdGetFirmware]) :
    decodePorts cfg { idlePorts c with pl := pl } = .ok (.frameSelfCalibration pl) := by
  rw [decodePorts_of_code h8]
  simp only [List.mem_cons, List.not_mem_nil, or_false, not_or, Option.some.injEq] at hfree
  simp [idlePorts, hfree, hc]

/-! ### Decoding what the encoder wrote -/

theorem decodePorts_encodePorts {i : Instr} (h : i.Encodable cfg) :
    ∃ t, encodePorts cfg i = some t ∧ decodePorts cfg t = .ok i := by
  cases i with
  | csum | enc | val | xco2 | xct | beginExchange | pwr | prd => exact ⟨_, rfl, rfl⟩
  | frameReadCo2 => exact ⟨_, rfl, decodePorts_frameReadCo2 h⟩
  | frameReadCo2Temp pl =>
    obtain ⟨c, hc, h8, hfree⟩ := checkSelector_eq_none_iff.mp h
    exact ⟨_, by rw [encodePorts, hc]; rfl, decodePorts_frameReadCo2Temp pl hc h8 hfree⟩
  | frameGetFirmware pl =>
    obtain ⟨c, hc, h8, hfree⟩ := checkSelector_eq_none_iff.mp h
    exact ⟨_, by rw [encodePorts, hc]; rfl, decodePorts_frameGetFirmware pl hc h8 hfree⟩
  | frameSelfCalibration pl =>
    obtain ⟨c, hc, h8, hfree⟩ := checkSelector_eq_none_iff.mp h
    exact ⟨_, by rw [encodePorts, hc]; rfl, decodePorts_frameSelfCalibration pl hc h8 hfree⟩

/-- Settles O41: the bytes of a transaction read back as that transaction (`transactionOfBytes_transactionBytes`), and
an encodable instruction's ports decode to it (`decodePorts_encodePorts`). -/
theorem decodeOfEncodeIsIdentity : Obligations.DecodeOfEncodeIsIdentity := by
  unfold Obligations.DecodeOfEncodeIsIdentity
  intro cfg i rest hi
  obtain ⟨t, henc, hdec⟩ := decodePorts_encodePorts hi
  exact ⟨transactionBytes t, by rw [encode, henc]; rfl, decode_transactionBytes_ok rest hdec⟩

/-- Settles O42: each word is one closed run of the decoder. -/
theorem selectorWordsDecode : Obligations.SelectorWordsDecode := by
  unfold Obligations.SelectorWordsDecode
  exact ⟨rfl, rfl, rfl, rfl, rfl, rfl, rfl⟩

/-! ### The step -/

theorem decodePorts_of_decode {i : Instr} (h : decode cfg (transactionBytes t) = .ok (i, [])) :
    decodePorts cfg t = .ok i := by
  rw [← List.append_nil (transactionBytes t)] at h
  cases hd : decodePorts cfg t with
  | ok j => rw [decode_transactionBytes_ok [] hd] at h; cases h; rfl
  | error e => rw [decode_transactionBytes_error [] hd] at h; cases h

theorem decodePorts_of_decode_error {e : DecodeError} (h : decode cfg (transactionBytes t) = .error e) :
    decodePorts cfg t = .error e := by
  rw [← List.append_nil (transactionBytes t)] at h
  cases hd : decodePorts cfg t with
  | ok j => rw [decode_transactionBytes_ok [] hd] at h; cases h
  | error e' => rw [decode_transactionBytes_error [] hd] at h; cases h; rfl

variable {s : State} {rest : List HostEvent}

theorem step_of_no_event (h : s.events = []) : step s = .next s := by simp only [step, h]

theorem step_of_reset (h : s.events = .reset :: rest) :
    step s = .next (State.resetEvent { s with events := rest }) := by simp only [step, h]

theorem step_of_operation {i : Instr} (h : s.events = .operation t :: rest) (hd : decodePorts s.cfg t = .ok i) :
    step s = exec i { s with events := rest } := by simp only [step, h, hd]

theorem step_of_undecodable {e : DecodeError} (h : s.events = .operation t :: rest)
    (hd : decodePorts s.cfg t = .error e) : step s = .refused (.undecodable e) := by simp only [step, h, hd]

/-- Settles O46: the bytes of the transaction decode as its ports do (`decodePorts_of_decode`). -/
theorem stepRunsTheDecodedInstruction : Obligations.StepRunsTheDecodedInstruction := by
  unfold Obligations.StepRunsTheDecodedInstruction
  exact fun s tr rest i hev hdec => step_of_operation hev (decodePorts_of_decode hdec)

/-- Settles O47: one lemma per head of the queue. -/
theorem stepWithoutAnInstruction : Obligations.StepWithoutAnInstruction := by
  unfold Obligations.StepWithoutAnInstruction
  refine fun s => ⟨step_of_no_event, fun rest hev => ?_, fun tr rest e hev hdec => ?_⟩
  · exact ⟨_, step_of_reset hev, State.resetEvent_idleShape _, rfl, rfl, rfl, rfl, rfl⟩
  · exact step_of_undecodable hev (decodePorts_of_decode_error hdec)

/-! ### The ports an operation reads (R67) -/

theorem bodySum_eq_of_bytes {f g : Frame}
    (h : ∀ (k : Nat) (_ : k < 9), 1 ≤ k → k ≤ 7 → f[k] = g[k]) : bodySum f = bodySum g := by
  simp only [bodySum, h 1 (by decide) (by decide) (by decide), h 2 (by decide) (by decide) (by decide),
    h 3 (by decide) (by decide) (by decide), h 4 (by decide) (by decide) (by decide),
    h 5 (by decide) (by decide) (by decide), h 6 (by decide) (by decide) (by decide),
    h 7 (by decide) (by decide) (by decide)]

theorem extractCo2_eq_of_bytes {f g : Frame} (h2 : f[2] = g[2]) (h3 : f[3] = g[3]) :
    extractCo2 f = extractCo2 g := by
  apply BitVec.eq_of_toNat_eq
  rw [extractCo2_toNat, extractCo2_toNat, h2, h3]

theorem extractTemp_eq_of_byte (cfg : Params) {f g : Frame} (h4 : f[4] = g[4]) :
    extractTemp cfg f = extractTemp cfg g := by
  apply BitVec.eq_of_toInt_eq
  rw [extractTemp_toInt, extractTemp_toInt, h4]

/-- The eight values of `op` (R66). -/
theorem sel_cases (h : t.sel.toNat < 8) : t.sel = 0b000 ∨ t.sel = 0b001 ∨ t.sel = 0b010 ∨ t.sel = 0b011 ∨
    t.sel = 0b100 ∨ t.sel = 0b101 ∨ t.sel = 0b110 ∨ t.sel = 0b111 := by bv_omega

/-- Settles O43: for each value of `op`, what the operation computes from the ports that agree. -/
theorem operationsReadOnlyTheirPorts : Obligations.OperationsReadOnlyTheirPorts := by
  unfold Obligations.OperationsReadOnlyTheirPorts
  rintro cfg ⟨op, cmd, pl, fin⟩ ⟨_, cmd', pl', fin'⟩ s rfl hop hcsum hval hxco2 hxct hreq
  rcases sel_cases hop with rfl | rfl | rfl | rfl | rfl | rfl | rfl | rfl
  case inl =>
    exact ⟨_, _, rfl, rfl, by rw [exec_csum, exec_csum, checksum_congr (bodySum_eq_of_bytes (hcsum rfl))]⟩
  case inr.inl => obtain ⟨rfl, rfl⟩ := hreq (.inl rfl); exact ⟨_, _, rfl, rfl, rfl⟩
  case inr.inr.inl => obtain rfl := hval rfl; exact ⟨_, _, rfl, rfl, rfl⟩
  case inr.inr.inr.inl =>
    obtain ⟨h2, h3⟩ := hxco2 rfl
    exact ⟨_, _, rfl, rfl, by rw [exec_xco2, exec_xco2, extractCo2_eq_of_bytes h2 h3]⟩
  case inr.inr.inr.inr.inl =>
    obtain ⟨h2, h3, h4⟩ := hxct rfl
    exact ⟨_, _, rfl, rfl, by
      rw [exec_xct, exec_xct, extractCo2_eq_of_bytes h2 h3, extractTemp_eq_of_byte s.cfg h4]⟩
  case inr.inr.inr.inr.inr.inl => obtain ⟨rfl, rfl⟩ := hreq (.inr rfl); exact ⟨_, _, rfl, rfl, rfl⟩
  case inr.inr.inr.inr.inr.inr.inl => exact ⟨_, _, rfl, rfl, rfl⟩
  case inr.inr.inr.inr.inr.inr.inr => exact ⟨_, _, rfl, rfl, rfl⟩

/-! ### The packed ports (R45) -/

theorem append_byte_low {w : Nat} (x : BitVec w) (b : Byte) : (x ++ b).extractLsb' 0 8 = b :=
  BitVec.extractLsb'_append_eq_right

theorem append_byte_high {w start : Nat} (x : BitVec w) (b : Byte) (h : 8 ≤ start) :
    (x ++ b).extractLsb' start 8 = x.extractLsb' (start - 8) 8 :=
  BitVec.extractLsb'_append_eq_of_le h

theorem packFrame_byte (f : Frame) (k : Nat) (hk : k < 9) : (packFrame f).extractLsb' (8 * k) 8 = f[k] := by
  match k, hk with
  | 0, _ | 1, _ | 2, _ | 3, _ | 4, _ | 5, _ | 6, _ | 7, _ | 8, _ =>
    simp [packFrame, append_byte_low, append_byte_high]

theorem packPayload_byte (p : Payload) (k : Nat) (hk : k < 5) :
    (packPayload p).extractLsb' (8 * k) 8 = p[k] := by
  match k, hk with
  | 0, _ | 1, _ | 2, _ | 3, _ | 4, _ =>
    simp [packPayload, append_byte_low, append_byte_high]

theorem unpackFrame_getElem (v : BitVec 72) (k : Nat) (hk : k < 9) :
    (unpackFrame v)[k] = v.extractLsb' (8 * k) 8 := by
  match k, hk with
  | 0, _ | 1, _ | 2, _ | 3, _ | 4, _ | 5, _ | 6, _ | 7, _ | 8, _ => rfl

theorem unpackPayload_getElem (v : BitVec 40) (k : Nat) (hk : k < 5) :
    (unpackPayload v)[k] = v.extractLsb' (8 * k) 8 := by
  match k, hk with
  | 0, _ | 1, _ | 2, _ | 3, _ | 4, _ => rfl

theorem unpackFrame_packFrame (f : Frame) : unpackFrame (packFrame f) = f :=
  Vector.ext fun k hk => (unpackFrame_getElem _ k hk).trans (packFrame_byte f k hk)

theorem unpackPayload_packPayload (p : Payload) : unpackPayload (packPayload p) = p :=
  Vector.ext fun k hk => (unpackPayload_getElem _ k hk).trans (packPayload_byte p k hk)

/-- Settles O44: byte `k` of a packed port (`packFrame_byte`, `packPayload_byte`) is what unpacking takes as byte
`k`. -/
theorem portPackingIsLossless : Obligations.PortPackingIsLossless := by
  unfold Obligations.PortPackingIsLossless
  exact ⟨packFrame_byte, packPayload_byte, unpackFrame_packFrame, unpackPayload_packPayload⟩

end Sys2Proof.Machine
end

section
/-! What one operation can do to a block, in the registers' terms of 10_state.md section 2: one inversion over all
instructions, and what each field is after an operation. -/

namespace Sys2Proof.Machine

/-! ### The effects of an operation -/

/-- Everything an operation that answers a next state can do: it writes the result port only, it starts an exchange,
or it makes one transport attempt, which is answered and ends as the constructor says. -/
inductive Effect (s : State) : Instr → State → Prop
  /-- A codec operation (R122). -/
  | codec {i : Instr} (r : Result) (hi : isCodec i = true) : Effect s i (s.ret r)
  /-- `BEGIN` or a frame command (R134). -/
  | start {i : Instr} (f : Frame) (hi : startsExchange i = true) : Effect s i (startExchange f s)
  /-- `PWR` outside `WRITING` (R136). -/
  | noWrite (hp : s.phase ≠ .writing) : Effect s .pwr (s.ret .complete)
  | writeBlocked (b : Byte) (hp : s.phase = .writing) (ha : s.nextWriteAnswer = .wouldBlock) :
      Effect s .pwr ((s.afterWrite b .wouldBlock).ret .inProgress)
  | writeFailed (b : Byte) (e : TransportErrorT) (hp : s.phase = .writing)
      (ha : s.nextWriteAnswer = .tErr e) :
      Effect s .pwr (raiseFatal (.transport e) (s.afterWrite b (.tErr e)))
  | accepted (b : Byte) (hp : s.phase = .writing) (hb : s.txFrame[s.txCount.toNat]? = some b)
      (ha : s.nextWriteAnswer = .transferred) :
      Effect s .pwr ((s.afterWrite b .transferred).advanceTx.ret
        (if s.txCount + 1 = 9 then .complete else .inProgress))
  /-- `PRD` outside `READING` (R138). -/
  | noRead (hp : s.phase ≠ .reading) : Effect s .prd (s.ret .inProgress)
  | readBlocked (hp : s.phase = .reading) (ha : s.nextReadAnswer = .wouldBlock) :
      Effect s .prd ((s.afterRead .wouldBlock).ret .inProgress)
  | readFailed (e : TransportErrorT) (hp : s.phase = .reading) (ha : s.nextReadAnswer = .tErr e) :
      Effect s .prd (raiseFatal (.transport e) (s.afterRead (.tErr e)))
  | gotEarly (b : Byte) (hp : s.phase = .reading) (ha : s.nextReadAnswer = .got b)
      (hl : s.rxBuf.length < 8) : Effect s .prd (((s.afterRead (.got b)).pushRx b).ret .inProgress)
  /-- The ninth byte, which completes the frame `f` (R138, D10). -/
  | gotNinth (b : Byte) (f : Frame) (r : Result) (hp : s.phase = .reading) (ha : s.nextReadAnswer = .got b)
      (hf : s.rxBuf ++ [b] = f.toList) (hr : (r = .ready f ∧ validateFrame s.cfg f = .ok f) ∨
        ∃ e, r = .error e ∧ validateFrame s.cfg f = .error e) :
      Effect s .prd (((s.afterRead (.got b)).pushRx b).resetToIdle.ret r)

variable {i : Instr} {s t : State}

theorem exec_pwr_effect (h : execPwr s = .next t) : Effect s .pwr t := by
  rcases execPwr_next h with ⟨hp, rfl⟩ | ⟨hp, b, hb, ⟨ha, rfl⟩ | ⟨e, ha, rfl⟩ | ⟨ha, rfl⟩⟩
  · exact .noWrite hp
  · exact .writeBlocked b hp ha
  · exact .writeFailed b e hp ha
  · exact .accepted b hp hb ha

theorem exec_prd_effect (h : execPrd s = .next t) : Effect s .prd t := by
  rcases execPrd_next h with ⟨hp, rfl⟩ | ⟨hp, ⟨ha, rfl⟩ | ⟨e, ha, rfl⟩ | ⟨b, ha, hend⟩⟩
  · exact .noRead hp
  · exact .readBlocked hp ha
  · exact .readFailed e hp ha
  · rcases finishRead_next hend with ⟨hl, rfl⟩ | ⟨f, hf, ⟨hv, rfl⟩ | ⟨e, hv, rfl⟩⟩
    · exact .gotEarly b hp ha (Nat.lt_of_succ_lt_succ (by simpa using hl))
    · exact .gotNinth b f _ hp ha hf (.inl ⟨rfl, hv⟩)
    · exact .gotNinth b f _ hp ha hf (.inr ⟨e, rfl, hv⟩)

theorem exec_effect (h : exec i s = .next t) : Effect s i t := by
  rcases exec_next h with ⟨hi, r, rfl⟩ | ⟨hi, c, pl, rfl⟩ | ⟨rfl, hpwr⟩ | ⟨rfl, hprd⟩
  · exact .codec r hi
  · exact .start _ hi
  · exact exec_pwr_effect hpwr
  · exact exec_prd_effect hprd

/-- The three kinds of operation exclude one another. -/
theorem isCodec_kind (hi : isCodec i = true) : startsExchange i = false ∧ i ≠ .pwr ∧ i ≠ .prd := by
  cases i <;> simp_all [isCodec, startsExchange]

theorem startsExchange_kind (hi : startsExchange i = true) : i ≠ .pwr ∧ i ≠ .prd := by
  cases i <;> simp_all [startsExchange]

/-! ### Each field after an operation -/

/-- Settles O32: no effect touches these fields. -/
theorem configurationAndEventsAreUntouched : Obligations.ConfigurationAndEventsAreUntouched := by
  unfold Obligations.ConfigurationAndEventsAreUntouched
  intro i s t h
  cases exec_effect h <;> exact ⟨rfl, rfl, rfl⟩

/-- Settles O27: what each effect does to the transport and the histories; only those of the polls in their own phase
make an attempt. -/
theorem atMostOneAttemptPerOperation : Obligations.AtMostOneAttemptPerOperation := by
  unfold Obligations.AtMostOneAttemptPerOperation
  intro i s t h
  cases exec_effect h with
  | codec r hi =>
    obtain ⟨-, hpwr, hprd⟩ := isCodec_kind hi
    exact .inl ⟨fun h => hpwr h.1, fun h => hprd h.1, rfl, rfl, rfl, rfl, rfl⟩
  | start f hi =>
    obtain ⟨hpwr, hprd⟩ := startsExchange_kind hi
    exact .inl ⟨fun h => hpwr h.1, fun h => hprd h.1, rfl, rfl, rfl, rfl, rfl⟩
  | noWrite hp => exact .inl ⟨fun h => hp h.2, nofun, rfl, rfl, rfl, rfl, rfl⟩
  | noRead hp => exact .inl ⟨nofun, fun h => hp h.2, rfl, rfl, rfl, rfl, rfl⟩
  | writeBlocked b hp ha => exact .inr (.inl ⟨rfl, hp, rfl, rfl, rfl, .inr ⟨by simp [ha], rfl⟩⟩)
  | writeFailed b e hp ha => exact .inr (.inl ⟨rfl, hp, rfl, rfl, rfl, .inr ⟨by simp [ha], rfl⟩⟩)
  | accepted b hp hb ha => exact .inr (.inl ⟨rfl, hp, rfl, rfl, rfl, .inl ⟨ha, b, hb, rfl⟩⟩)
  | readBlocked hp ha => exact .inr (.inr ⟨rfl, hp, rfl, rfl, rfl, by simp [ha, gotByte]⟩)
  | readFailed e hp ha =>
    exact .inr (.inr ⟨rfl, hp, rfl, rfl, rfl, by simp [ha, gotByte, raiseFatal, raiseError]⟩)
  | gotEarly b hp ha => exact .inr (.inr ⟨rfl, hp, rfl, rfl, rfl, by simp [ha, gotByte]⟩)
  | gotNinth b f r hp ha => exact .inr (.inr ⟨rfl, hp, rfl, rfl, rfl, by simp [ha, gotByte]⟩)

/-- Settles O28: the phase after each effect. -/
theorem phaseTransitionsAreTheListedOnes : Obligations.PhaseTransitionsAreTheListedOnes := by
  unfold Obligations.PhaseTransitionsAreTheListedOnes
  intro i s t h
  cases exec_effect h with
  | codec r hi => simp [isCodec_kind hi]
  | start f hi => simp [hi, startExchange]
  | noWrite hp => simp [startsExchange, hp]
  | noRead hp => simp [startsExchange, hp]
  | writeBlocked b hp ha => simp [startsExchange, hp, ha]
  | writeFailed b e hp ha => simp [startsExchange, hp, ha, raiseFatal, raiseError]
  | accepted b hp hb ha =>
    simp only [State.ret_phase, State.advanceTx_phase, State.afterWrite_txCount, State.afterWrite_phase,
      txCount_add_one_eq_nine_iff]
    simp [startsExchange, hp, ha]
  | readBlocked hp ha => simp [startsExchange, hp, ha]
  | readFailed e hp ha => simp [startsExchange, hp, ha, raiseFatal, raiseError]
  | gotEarly b hp ha hl => simp [startsExchange, hp, ha, hl]
  | gotNinth b f r hp ha hf =>
    have hl : s.rxBuf.length + 1 = 9 := by simpa using congrArg List.length hf
    have hfull : ¬s.rxBuf.length < 8 := by omega
    simp [startsExchange, hp, ha, hfull]

/-- Settles O30: the count after each effect. -/
theorem txCountChangesOnlyAsStated : Obligations.TxCountChangesOnlyAsStated := by
  unfold Obligations.TxCountChangesOnlyAsStated
  intro i s t h
  cases exec_effect h with
  | start f hi => exact .inr (.inl ⟨rfl, .inl hi⟩)
  | writeFailed | readFailed => exact .inr (.inl ⟨rfl, .inr (raiseFatal_idleShape _ _)⟩)
  | gotNinth => exact .inr (.inl ⟨rfl, .inr ⟨rfl, rfl, rfl⟩⟩)
  | accepted b hp hb ha => exact .inr (.inr ⟨rfl, hp, ha, rfl⟩)
  | codec | noWrite | noRead | writeBlocked | readBlocked | gotEarly => exact .inl rfl

/-- Settles O31: the buffer after each effect. -/
theorem rxBufIsAppendOnly : Obligations.RxBufIsAppendOnly := by
  unfold Obligations.RxBufIsAppendOnly
  intro i s t h
  cases exec_effect h with
  | start f hi => exact .inr (.inl ⟨rfl, .inl hi⟩)
  | writeFailed | readFailed => exact .inr (.inl ⟨rfl, .inr (raiseFatal_idleShape _ _)⟩)
  | gotNinth => exact .inr (.inl ⟨rfl, .inr ⟨rfl, rfl, rfl⟩⟩)
  | gotEarly b hp ha hl => exact .inr (.inr ⟨rfl, hp, b, ha, rfl, by simpa using hl⟩)
  | codec | noWrite | noRead | writeBlocked | readBlocked | accepted => exact .inl rfl

/-! ### The result codes (R68) -/

theorem code_of_validateFrame_error {cfg : Params} {f : Frame} {e : BlockError}
    (h : validateFrame cfg f = .error e) : (Result.error e).code = 0b101 ∨ (Result.error e).code = 0b110 := by
  rcases validateFrame_error h with ⟨-, rfl⟩ | ⟨-, -, rfl⟩
  · exact .inl rfl
  · exact .inr rfl

theorem exec_val_code {f : Frame} (h : exec (.val f) s = .next t) :
    ∃ r, t.result = some r ∧ (r.code = 0b000 ∨ r.code = 0b101 ∨ r.code = 0b110) := by
  rw [exec_val, execVal] at h
  split at h
  · cases h; exact ⟨_, rfl, .inl rfl⟩
  next e he => cases h; exact ⟨_, rfl, .inr (code_of_validateFrame_error he)⟩

theorem exec_pwr_code (h : exec .pwr s = .next t) :
    ∃ r, t.result = some r ∧ (r.code = 0b001 ∨ r.code = 0b010 ∨ r.code = 0b100) := by
  cases exec_effect h with
  | codec r hi => cases hi
  | start f hi => cases hi
  | noWrite => exact ⟨_, rfl, .inr (.inl rfl)⟩
  | writeBlocked => exact ⟨_, rfl, .inl rfl⟩
  | writeFailed => exact ⟨_, rfl, .inr (.inr rfl)⟩
  | accepted =>
    refine ⟨_, rfl, ?_⟩
    split
    · exact .inr (.inl rfl)
    · exact .inl rfl

theorem exec_prd_code (h : exec .prd s = .next t) :
    ∃ r, t.result = some r ∧
      (r.code = 0b001 ∨ r.code = 0b011 ∨ r.code = 0b100 ∨ r.code = 0b101 ∨ r.code = 0b110) := by
  cases exec_effect h with
  | codec r hi => cases hi
  | start f hi => cases hi
  | noRead | readBlocked | gotEarly => exact ⟨_, rfl, .inl rfl⟩
  | readFailed => exact ⟨_, rfl, .inr (.inr (.inl rfl))⟩
  | gotNinth b f r hp ha hf hr =>
    refine ⟨_, rfl, ?_⟩
    rcases hr with ⟨rfl, -⟩ | ⟨e, rfl, he⟩
    · exact .inr (.inl rfl)
    · exact .inr (.inr (.inr (code_of_validateFrame_error he)))

theorem exec_ok_code (hpwr : i ≠ .pwr) (hprd : i ≠ .prd) (hval : ∀ f, i ≠ .val f) (h : exec i s = .next t) :
    ∃ r, t.result = some r ∧ r.code = 0b000 := by
  rcases exec_next h with ⟨hc, -⟩ | ⟨-, c, pl, rfl⟩ | ⟨rfl, -⟩ | ⟨rfl, -⟩
  · cases i <;> simp only [isCodec, Bool.false_eq_true] at hc
    case csum => rw [exec_csum] at h; cases h; exact ⟨_, rfl, rfl⟩
    case enc => rw [exec_enc] at h; obtain ⟨-, -, rfl⟩ := withRequest_next h; exact ⟨_, rfl, rfl⟩
    case val f => exact absurd rfl (hval f)
    case xco2 => rw [exec_xco2] at h; cases h; exact ⟨_, rfl, rfl⟩
    case xct => rw [exec_xct] at h; cases h; exact ⟨_, rfl, rfl⟩
  · exact ⟨_, rfl, rfl⟩
  · exact absurd rfl hpwr
  · exact absurd rfl hprd

theorem exec_codec_code (hi : isCodec i = true) (h : exec i s = .next t) :
    ∃ r, t.result = some r ∧ (r.code = 0b000 ∨ r.code = 0b101 ∨ r.code = 0b110) := by
  by_cases hval : ∃ f, i = .val f
  · obtain ⟨f, rfl⟩ := hval
    exact exec_val_code h
  · obtain ⟨-, hpwr, hprd⟩ := isCodec_kind hi
    obtain ⟨r, hr, hcode⟩ := exec_ok_code hpwr hprd (not_exists.mp hval) h
    exact ⟨r, hr, .inl hcode⟩

/-- Settles O45: one lemma for each of `PWR`, `PRD` and `VAL`, and one for all the others. -/
theorem resultCodesPerOperation : Obligations.ResultCodesPerOperation := by
  unfold Obligations.ResultCodesPerOperation
  intro i s t h
  by_cases hpwr : i = .pwr
  · subst hpwr
    obtain ⟨r, hr, hcode⟩ := exec_pwr_code h
    have hreserved : r.code ≠ 0b111 := by rcases hcode with hk | hk | hk <;> simp [hk]
    exact ⟨r, hr, hreserved, fun _ => hcode, nofun, nofun, fun hne => absurd rfl hne⟩
  by_cases hprd : i = .prd
  · subst hprd
    obtain ⟨r, hr, hcode⟩ := exec_prd_code h
    have hreserved : r.code ≠ 0b111 := by rcases hcode with hk | hk | hk | hk | hk <;> simp [hk]
    exact ⟨r, hr, hreserved, nofun, fun _ => hcode, nofun, fun _ hne => absurd rfl hne⟩
  by_cases hval : ∃ f, i = .val f
  · obtain ⟨f, rfl⟩ := hval
    obtain ⟨r, hr, hcode⟩ := exec_val_code h
    have hreserved : r.code ≠ 0b111 := by rcases hcode with hk | hk | hk <;> simp [hk]
    exact ⟨r, hr, hreserved, nofun, nofun, fun _ => hcode, fun _ _ hne => absurd rfl (hne f)⟩
  obtain ⟨r, hr, hcode⟩ := exec_ok_code hpwr hprd (not_exists.mp hval) h
  exact ⟨r, hr, by simp [hcode], fun hi => absurd hi hpwr, fun hi => absurd hi hprd, fun hi => absurd hi hval,
    fun _ _ _ => hcode⟩

/-! ### The least length of an exchange (R212) -/

/-- How many of the nineteen operations of an exchange the registers show to be done. -/
def State.progress (s : State) : Nat :=
  match s.phase with
  | .idle => 0
  | .writing => s.txCount.toNat + 1
  | .reading => s.rxBuf.length + 10

theorem State.progress_idle (h : s.phase = .idle) : s.progress = 0 := by simp only [State.progress, h]

theorem State.progress_writing (h : s.phase = .writing) : s.progress = s.txCount.toNat + 1 := by
  simp only [State.progress, h]

theorem State.progress_reading (h : s.phase = .reading) : s.progress = s.rxBuf.length + 10 := by
  simp only [State.progress, h]

theorem State.WritingShape.progress_advanceTx (h : s.WritingShape) : s.advanceTx.progress ≤ s.progress + 1 := by
  obtain ⟨hp, hc, hb⟩ := h
  rw [s.progress_writing hp]
  by_cases h9 : s.txCount + 1 = 9
  · have hread : s.advanceTx.phase = .reading := if_pos h9
    have h8 : s.txCount.toNat = 8 := by rw [(txCount_add_one_eq_nine_iff _).mp h9]; rfl
    rw [State.progress_reading hread, State.advanceTx_rxBuf, hb, h8]
    exact Nat.le_refl _
  · have hwrite : s.advanceTx.phase = .writing := (if_neg h9).trans hp
    rw [State.progress_writing hwrite, State.advanceTx_txCount]
    bv_omega

/-- One operation is one step of an exchange at most. -/
theorem exec_progress_le (hs : s.Inv) (h : exec i s = .next t) : t.progress ≤ s.progress + 1 := by
  have hsame {r : Result} : (s.ret r).progress ≤ s.progress + 1 := Nat.le_succ s.progress
  have hidle {u : State} (hu : u.phase = .idle) : u.progress ≤ s.progress + 1 := by
    rw [u.progress_idle hu]; exact Nat.zero_le _
  cases exec_effect h with
  | codec | noWrite | noRead => exact hsame
  | start f hi => exact Nat.succ_le_succ (Nat.zero_le _)
  | writeBlocked | readBlocked => exact hsame (r := .inProgress)
  | writeFailed | readFailed | gotNinth => exact hidle rfl
  | accepted b hp hb ha =>
    exact State.WritingShape.progress_advanceTx (s := s.afterWrite b .transferred) (hs.writingShape hp)
  | gotEarly b hp ha hl =>
    rw [State.progress_reading (s := ((s.afterRead (.got b)).pushRx b).ret .inProgress) hp, s.progress_reading hp]
    simp

/-- Only the `PRD` that gets the ninth byte returns `READY`. -/
theorem exec_ready {f : Frame} (h : exec i s = .next t) (hr : t.result = some (.ready f)) :
    s.progress = 18 := by
  cases exec_effect h with
  | codec r hi =>
    obtain ⟨r', hr', hcode⟩ := exec_codec_code hi h
    cases hr'.symm.trans hr
    simp [Result.code] at hcode
  | start | noWrite | noRead | writeBlocked | writeFailed | readBlocked | readFailed | gotEarly => cases hr
  | accepted => rw [State.ret_result] at hr; split at hr <;> cases hr
  | gotNinth b f' r hp ha hf =>
    have hl : s.rxBuf.length + 1 = 9 := by simpa using congrArg List.length hf
    rw [s.progress_reading hp]
    omega

theorem nineteen_le_of_ready {ops : List Instr} {f : Frame} (hs : s.Inv) (hnot : ∀ g, s.result ≠ some (.ready g))
    (h : execList ops s = .next t) (hr : t.result = some (.ready f)) : 19 ≤ s.progress + ops.length := by
  induction ops generalizing s with
  | nil => cases h; exact absurd hr (hnot f)
  | cons i ops ih =>
    obtain ⟨u, hu, hrest⟩ := execList_cons_next h
    have hle := exec_progress_le hs hu
    rw [List.length_cons]
    by_cases hready : ∃ g, u.result = some (.ready g)
    · obtain ⟨g, hg⟩ := hready
      have h18 := exec_ready hu hg
      omega
    · have hgo := ih (exec_keeps_inv hs hu) (not_exists.mp hready) hrest
      omega

/-- Settles O37: an idle block has made no step of the exchange, each operation makes one at most
(`exec_progress_le`), and `READY` needs all nineteen (`nineteen_le_of_ready`). -/
theorem anExchangeTakesNineteenOperations : Obligations.AnExchangeTakesNineteenOperations := by
  unfold Obligations.AnExchangeTakesNineteenOperations
  intro ops s t f hidle hnot h hr
  have hall := nineteen_le_of_ready (.inl hidle) hnot h hr
  rwa [s.progress_idle hidle.1, Nat.zero_add] at hall

end Sys2Proof.Machine
end

section
/-! Which operations end without a next state: a fault needs registers the invariant rules out, and a refusal needs a
request that is not admitted. -/

namespace Sys2Proof.Machine

variable {i : Instr} {s : State} {cmd : Byte} {pl : Payload} {k : Frame → State} {r : Refusal}

/-- Settles O2: the reset state has the idle shape (`State.resetWith_idleShape`). -/
theorem resetMeetsInvariant : Obligations.ResetMeetsInvariant := by
  unfold Obligations.ResetMeetsInvariant
  have hreset (cfg : Params) : (State.resetWith cfg).Inv := .inl (State.resetWith_idleShape cfg _)
  exact ⟨hreset, hreset _⟩

/-! ### The polls: a next state or a fault -/

theorem exec_pwr_outcome (s : State) :
    (∃ t, exec .pwr s = .next t) ∨
      (s.phase = .writing ∧ 9 ≤ s.txCount.toNat ∧ exec .pwr s = .fault .txIndexOutOfRange) := by
  by_cases hp : s.phase = .writing
  · by_cases hc : s.txCount.toNat < 9
    · cases ha : s.nextWriteAnswer with
      | transferred => exact .inl ⟨_, exec_pwr_transferred hp hc ha⟩
      | wouldBlock => exact .inl ⟨_, exec_pwr_wouldBlock hp hc ha⟩
      | tErr e => exact .inl ⟨_, exec_pwr_tErr hp hc ha⟩
    · have hnone : s.txFrame[s.txCount.toNat]? = none := Vector.getElem?_eq_none (Nat.le_of_not_lt hc)
      exact .inr ⟨hp, Nat.le_of_not_lt hc, by simp only [exec_pwr, execPwr, hp, if_true, hnone]⟩
  · exact .inl ⟨_, exec_pwr_of_not_writing hp⟩

theorem finishRead_outcome (s : State) :
    (∃ t, finishRead s = .next t) ∨ (9 < s.rxBuf.length ∧ finishRead s = .fault .rxBufTooLong) := by
  rcases Nat.lt_trichotomy s.rxBuf.length 9 with hl | hl | hl
  · exact .inl ⟨_, finishRead_short hl⟩
  · obtain ⟨f, hf, -⟩ := frameOfBytes_of_length hl
    exact .inl ⟨_, finishRead_full hf.symm⟩
  · have hnone : frameOfBytes s.rxBuf = none := by
      refine Option.eq_none_iff_forall_ne_some.mpr fun f hf => ?_
      simp [eq_toList_of_frameOfBytes hf] at hl
    exact .inr ⟨hl, by rw [finishRead, if_neg (Nat.lt_asymm hl), hnone]⟩

theorem exec_prd_outcome (s : State) :
    (∃ t, exec .prd s = .next t) ∨
      (s.phase = .reading ∧ 9 ≤ s.rxBuf.length ∧ exec .prd s = .fault .rxBufTooLong) := by
  by_cases hp : s.phase = .reading
  · cases ha : s.nextReadAnswer with
    | wouldBlock => exact .inl ⟨_, exec_prd_wouldBlock hp ha⟩
    | tErr e => exact .inl ⟨_, exec_prd_tErr hp ha⟩
    | got b =>
      rw [exec_prd_got hp ha]
      rcases finishRead_outcome ((s.afterRead (.got b)).pushRx b) with hnext | ⟨hl, hfault⟩
      · exact .inl hnext
      · exact .inr ⟨hp, Nat.le_of_lt_succ (by simpa using hl), hfault⟩
  · exact .inl ⟨_, exec_prd_of_not_reading hp⟩

theorem exec_pwr_completes (hs : s.Inv) : ∃ t, exec .pwr s = .next t := by
  refine (exec_pwr_outcome s).resolve_right fun ⟨hp, h9, _⟩ => ?_
  obtain ⟨-, h8, -⟩ := hs.writingShape hp
  omega

theorem exec_prd_completes (hs : s.Inv) : ∃ t, exec .prd s = .next t := by
  refine (exec_prd_outcome s).resolve_right fun ⟨hp, h9, _⟩ => ?_
  obtain ⟨-, -, h8⟩ := hs.readingShape hp
  omega

/-! ### Requests: a next state or a refusal (R69 (d), R185) -/

/-- The refusal that an operand problem is answered with. -/
abbrev RefusedFor (r : Refusal) (p : Option IllFormed) : Prop :=
  (r = .commandNotInEnumeration ∧ p = some .commandNotInEnumeration) ∨
    (r = .payloadShapeInvalid ∧ p = some .payloadShapeInvalid)

theorem checkOperands_eq_none_iff {cfg : Params} :
    checkOperands cfg cmd pl = none ↔ commandValid cfg cmd = true ∧ payloadValid cfg cmd pl = true := by
  cases hc : commandValid cfg cmd <;> cases hp : payloadValid cfg cmd pl <;> simp [checkOperands, hc, hp]

theorem withRequest_completes (h : checkOperands s.cfg cmd pl = none) :
    ∃ t, withRequest cmd pl s k = .next t := by
  obtain ⟨hc, hp⟩ := checkOperands_eq_none_iff.mp h
  exact ⟨_, withRequest_valid hc hp⟩

theorem withRequest_refused_iff :
    withRequest cmd pl s k = .refused r ↔ RefusedFor r (checkOperands s.cfg cmd pl) := by
  cases hc : commandValid s.cfg cmd with
  | false => simp [withRequest_invalid_command hc, checkOperands, hc, RefusedFor, eq_comm]
  | true =>
    cases hp : payloadValid s.cfg cmd pl with
    | false => simp [withRequest_invalid_payload hc hp, checkOperands, hc, hp, RefusedFor, eq_comm]
    | true => simp [withRequest_valid hc hp, checkOperands, hc, hp, RefusedFor]

theorem exec_frameReadCo2_next (s : State) :
    exec .frameReadCo2 s = .next (startExchange (encodeFrame s.cfg s.cfg.cmdReadCo2 zeroPayload) s) :=
  (exec_frameReadCo2 s).trans
    (requestExchange_valid (commandValid_cmdReadCo2 s.cfg) (payloadValid_cmdReadCo2 s.cfg))

theorem exec_ne_refused (hnext : ∃ t, exec i s = .next t) : exec i s ≠ .refused r := by
  obtain ⟨t, ht⟩ := hnext
  simp [ht]

theorem exec_pwr_ne_refused : exec .pwr s ≠ .refused r := by
  rcases exec_pwr_outcome s with hnext | ⟨-, -, hfault⟩
  · exact exec_ne_refused hnext
  · simp [hfault]

theorem exec_prd_ne_refused : exec .prd s ≠ .refused r := by
  rcases exec_prd_outcome s with hnext | ⟨-, -, hfault⟩
  · exact exec_ne_refused hnext
  · simp [hfault]

/-- Every instruction is a request, or has admitted operands and is a poll or always completes. -/
theorem exec_kinds (i : Instr) (s : State) :
    (∃ cmd pl k, exec i s = withRequest cmd pl s k ∧ i.operandProblem s.cfg = checkOperands s.cfg cmd pl) ∨
      (i.operandProblem s.cfg = none ∧ (i = .pwr ∨ i = .prd ∨ ∃ t, exec i s = .next t)) := by
  cases i with
  | enc cmd pl => exact .inl ⟨_, _, _, exec_enc cmd pl s, rfl⟩
  | beginExchange cmd pl => exact .inl ⟨_, _, _, exec_beginExchange cmd pl s, rfl⟩
  | frameReadCo2Temp pl => exact .inl ⟨_, _, _, exec_frameReadCo2Temp pl s, rfl⟩
  | frameGetFirmware pl => exact .inl ⟨_, _, _, exec_frameGetFirmware pl s, rfl⟩
  | frameSelfCalibration pl => exact .inl ⟨_, _, _, exec_frameSelfCalibration pl s, rfl⟩
  | csum | xco2 | xct => exact .inr ⟨rfl, .inr (.inr ⟨_, rfl⟩)⟩
  | val f =>
    obtain ⟨q, hq⟩ := execVal_eq f s
    exact .inr ⟨rfl, .inr (.inr ⟨_, hq⟩)⟩
  | pwr => exact .inr ⟨rfl, .inl rfl⟩
  | prd => exact .inr ⟨rfl, .inr (.inl rfl)⟩
  | frameReadCo2 => exact .inr ⟨rfl, .inr (.inr ⟨_, exec_frameReadCo2_next s⟩)⟩

/-- Settles O6: a request is refused for its operand problem (`withRequest_refused_iff`), and nothing else is. -/
theorem onlyInvalidRequestsAreRefused : Obligations.OnlyInvalidRequestsAreRefused := by
  unfold Obligations.OnlyInvalidRequestsAreRefused
  intro i s r
  rcases exec_kinds i s with ⟨cmd, pl, k, hexec, hop⟩ | ⟨hop, hkind⟩
  · rw [hexec, hop]
    exact withRequest_refused_iff
  · have hadmitted : ¬RefusedFor r (i.operandProblem s.cfg) := by simp [RefusedFor, hop]
    refine iff_of_false ?_ hadmitted
    rcases hkind with rfl | rfl | hnext
    · exact exec_pwr_ne_refused
    · exact exec_prd_ne_refused
    · exact exec_ne_refused hnext

/-- Settles O5: a request completes on its operands (`withRequest_completes`), a poll on its registers. -/
theorem everyAdmittedOperationCompletes : Obligations.EveryAdmittedOperationCompletes := by
  unfold Obligations.EveryAdmittedOperationCompletes
  intro i s hs hi
  rcases exec_kinds i s with ⟨cmd, pl, k, hexec, hop⟩ | ⟨-, rfl | rfl | hnext⟩
  · rw [hexec]
    exact withRequest_completes (hop.symm.trans hi)
  · exact exec_pwr_completes hs
  · exact exec_prd_completes hs
  · exact hnext

/-! ### No run from the invariant faults -/

theorem exec_ne_fault {r : Fault} (hs : s.Inv) : exec i s ≠ .fault r := by
  have hnot (hnext : ∃ t, exec i s = .next t) : exec i s ≠ .fault r := by
    obtain ⟨t, ht⟩ := hnext
    simp [ht]
  rcases exec_kinds i s with ⟨cmd, pl, k, hexec, -⟩ | ⟨-, rfl | rfl | hnext⟩
  · rw [hexec]
    exact withRequest_not_fault
  · exact hnot (exec_pwr_completes hs)
  · exact hnot (exec_prd_completes hs)
  · exact hnot hnext

theorem step_ne_fault {r : Fault} (hs : s.Inv) : step s ≠ .fault r := by
  unfold step
  split
  · exact nofun
  · exact nofun
  · split
    · exact exec_ne_fault ((s.withEvents_inv _).mpr hs)
    · exact nofun

theorem core_run_succ_of_next {t : State} (n : Nat) (h : step s = .next t) :
    Sys2Proof.core.run (n + 1) s = Sys2Proof.core.run n t := by
  have hstep : Sys2Proof.core.step s = .next t := h
  simp only [Host.Core.run, hstep]

theorem core_run_succ_of_refused (n : Nat) (h : step s = .refused r) :
    Sys2Proof.core.run (n + 1) s = .refused r := by
  have hstep : Sys2Proof.core.step s = .refused r := h
  simp only [Host.Core.run, hstep]

/-- Settles O4, by induction on the number of steps: no step from the invariant faults (`step_ne_fault`), and each
keeps it (`step_keeps_inv`). -/
theorem invariantRunsNeverFault : Obligations.InvariantRunsNeverFault := by
  unfold Obligations.InvariantRunsNeverFault
  intro s hs n r
  induction n generalizing s with
  | zero => exact nofun
  | succ n ih =>
    cases hstep : step s with
    | next t => rw [core_run_succ_of_next n hstep]; exact ih t (step_keeps_inv hs hstep)
    | fault q => exact absurd hstep (step_ne_fault hs)
    | refused q => rw [core_run_succ_of_refused n hstep]; exact nofun

end Sys2Proof.Machine
end

section
/-! What an operation does not read: `tx_frame` outside `PWR` in `WRITING` (R25), the result port (R23), and the
values of transport errors (D19). Each says that an operation goes on alike from two states, which is proved once. -/

namespace Sys2Proof.Machine

/-! ### One operation in two states -/

/-- The state `PWR` leaves after the transport's answer to byte `b` (R136). -/
def State.endWrite (b : Byte) (s : State) : WriteAnswer → State
  | .wouldBlock => (s.afterWrite b .wouldBlock).ret .inProgress
  | .tErr e => raiseFatal (.transport e) (s.afterWrite b (.tErr e))
  | .transferred => (s.afterWrite b .transferred).advanceTx.ret
      (if s.txCount + 1 = 9 then .complete else .inProgress)

/-- Two states in which operations take the same course, with the transport's errors in `u` those in `s` mapped by
`m`: what the course is chosen by agrees, and the states it can end in agree once `k` and `k'` have changed them. -/
structure Alike (m : TransportErrorT → TransportErrorT) (k k' : State → State) (u s : State) : Prop where
  phase : u.phase = s.phase
  cfg : u.cfg = s.cfg
  rxBuf : u.rxBuf = s.rxBuf
  readAnswer : u.nextReadAnswer = mapErrorOfRead m s.nextReadAnswer
  ret : ∀ r, (∀ e, r ≠ .error (.transport e)) → k (u.ret r) = k' (s.ret r)
  start : ∀ f, k (startExchange f u) = k' (startExchange f s)
  endWrite : ∀ b, k (u.endWrite b u.nextWriteAnswer) = k' (s.endWrite b s.nextWriteAnswer)
  readBlocked : k ((u.afterRead .wouldBlock).ret .inProgress) = k' ((s.afterRead .wouldBlock).ret .inProgress)
  readFailed : ∀ e, k (raiseFatal (.transport (m e)) (u.afterRead (.tErr (m e)))) =
    k' (raiseFatal (.transport e) (s.afterRead (.tErr e)))
  gotEarly : ∀ b, k (((u.afterRead (.got b)).pushRx b).ret .inProgress) =
    k' (((s.afterRead (.got b)).pushRx b).ret .inProgress)
  gotNinth : ∀ b r, (∀ e, r ≠ .error (.transport e)) →
    k (((u.afterRead (.got b)).pushRx b).resetToIdle.ret r) =
      k' (((s.afterRead (.got b)).pushRx b).resetToIdle.ret r)

variable {m : TransportErrorT → TransportErrorT} {k k' : State → State} {u s : State}

theorem mapNext_withRequest {cmd : Byte} {pl : Payload} {c c' : Frame → State} (hcfg : u.cfg = s.cfg)
    (hc : ∀ f, k (c f) = k' (c' f)) :
    mapNext k (withRequest cmd pl u c) = mapNext k' (withRequest cmd pl s c') := by
  rw [withRequest, withRequest, hcfg]
  split
  · rfl
  · split
    · rfl
    · exact congrArg Host.Outcome.next (hc _)

theorem error_ne_transport {cfg : Params} {f : Frame} {e : BlockError} (h : validateFrame cfg f = .error e)
    (te : TransportErrorT) : Result.error e ≠ .error (.transport te) := by
  intro hte
  cases hte
  exact validateFrame_ne_transport te h

theorem Alike.mapNext_exec_val (h : Alike m k k' u s) (f : Frame) :
    mapNext k (exec (.val f) u) = mapNext k' (exec (.val f) s) := by
  rw [exec_val, exec_val, execVal, execVal, h.cfg]
  cases hv : validateFrame s.cfg f with
  | ok g => exact congrArg Host.Outcome.next (h.ret _ nofun)
  | error e => exact congrArg Host.Outcome.next (h.ret _ (error_ne_transport hv))

theorem exec_pwr_writing {b : Byte} (hp : s.phase = .writing) (hb : s.txFrame[s.txCount.toNat]? = some b) :
    exec .pwr s = .next (s.endWrite b s.nextWriteAnswer) := by
  simp only [exec_pwr, execPwr, if_pos hp, hb, tryWrite]
  cases s.nextWriteAnswer <;> rfl

theorem exec_pwr_out_of_range (hp : s.phase = .writing) (hb : s.txFrame[s.txCount.toNat]? = none) :
    exec .pwr s = .fault .txIndexOutOfRange := by
  simp only [exec_pwr, execPwr, if_pos hp, hb]

theorem Alike.mapNext_exec_pwr (h : Alike m k k' u s)
    (hbyte : s.phase = .writing → u.txFrame[u.txCount.toNat]? = s.txFrame[s.txCount.toNat]?) :
    mapNext k (exec .pwr u) = mapNext k' (exec .pwr s) := by
  by_cases hp : s.phase = .writing
  · have hu : u.phase = .writing := h.phase.trans hp
    cases hb : s.txFrame[s.txCount.toNat]? with
    | none => rw [exec_pwr_out_of_range hp hb, exec_pwr_out_of_range hu ((hbyte hp).trans hb)]; rfl
    | some b =>
      rw [exec_pwr_writing hp hb, exec_pwr_writing hu ((hbyte hp).trans hb)]
      exact congrArg Host.Outcome.next (h.endWrite b)
  · rw [exec_pwr_of_not_writing hp, exec_pwr_of_not_writing (h.phase ▸ hp)]
    exact congrArg Host.Outcome.next (h.ret _ nofun)

theorem mapNext_finishRead (hcfg : u.cfg = s.cfg) (hbuf : u.rxBuf = s.rxBuf)
    (hearly : k (u.ret .inProgress) = k' (s.ret .inProgress))
    (hninth : ∀ r, (∀ e, r ≠ .error (.transport e)) → k (u.resetToIdle.ret r) = k' (s.resetToIdle.ret r)) :
    mapNext k (finishRead u) = mapNext k' (finishRead s) := by
  rw [finishRead, finishRead, hbuf, hcfg]
  split
  · exact congrArg Host.Outcome.next hearly
  · split
    · rfl
    next f _ =>
      cases hv : validateFrame s.cfg f with
      | ok g => exact congrArg Host.Outcome.next (hninth _ nofun)
      | error e => exact congrArg Host.Outcome.next (hninth _ (error_ne_transport hv))

theorem Alike.mapNext_exec_prd (h : Alike m k k' u s) : mapNext k (exec .prd u) = mapNext k' (exec .prd s) := by
  by_cases hp : s.phase = .reading
  · have hu : u.phase = .reading := h.phase.trans hp
    cases ha : s.nextReadAnswer with
    | wouldBlock =>
      have hua : u.nextReadAnswer = .wouldBlock := by rw [h.readAnswer, ha]; rfl
      rw [exec_prd_wouldBlock hp ha, exec_prd_wouldBlock hu hua]
      exact congrArg Host.Outcome.next h.readBlocked
    | tErr e =>
      have hua : u.nextReadAnswer = .tErr (m e) := by rw [h.readAnswer, ha]; rfl
      rw [exec_prd_tErr hp ha, exec_prd_tErr hu hua]
      exact congrArg Host.Outcome.next (h.readFailed e)
    | got b =>
      have hua : u.nextReadAnswer = .got b := by rw [h.readAnswer, ha]; rfl
      rw [exec_prd_got hp ha, exec_prd_got hu hua]
      refine mapNext_finishRead h.cfg ?_ (h.gotEarly b) (h.gotNinth b)
      rw [State.pushRx_rxBuf, State.pushRx_rxBuf, State.afterRead_rxBuf, State.afterRead_rxBuf, h.rxBuf]
  · rw [exec_prd_of_not_reading hp, exec_prd_of_not_reading (h.phase ▸ hp)]
    exact congrArg Host.Outcome.next (h.ret _ nofun)

/-- From two states alike every operation goes on alike; `PWR` in `WRITING` takes a byte of `tx_frame` besides. -/
theorem Alike.mapNext_exec (h : Alike m k k' u s) {i : Instr}
    (hbyte : i = .pwr → s.phase = .writing → u.txFrame[u.txCount.toNat]? = s.txFrame[s.txCount.toNat]?) :
    mapNext k (exec i u) = mapNext k' (exec i s) := by
  cases i with
  | csum | xco2 => exact congrArg Host.Outcome.next (h.ret _ nofun)
  | xct => rw [exec_xct, exec_xct, h.cfg]; exact congrArg Host.Outcome.next (h.ret _ nofun)
  | enc => rw [exec_enc, exec_enc]; exact mapNext_withRequest h.cfg fun f => h.ret _ nofun
  | val f => exact h.mapNext_exec_val f
  | beginExchange => rw [exec_beginExchange, exec_beginExchange]; exact mapNext_withRequest h.cfg h.start
  | frameReadCo2 => rw [exec_frameReadCo2, exec_frameReadCo2, h.cfg]; exact mapNext_withRequest h.cfg h.start
  | frameReadCo2Temp =>
    rw [exec_frameReadCo2Temp, exec_frameReadCo2Temp, h.cfg]; exact mapNext_withRequest h.cfg h.start
  | frameGetFirmware =>
    rw [exec_frameGetFirmware, exec_frameGetFirmware, h.cfg]; exact mapNext_withRequest h.cfg h.start
  | frameSelfCalibration =>
    rw [exec_frameSelfCalibration, exec_frameSelfCalibration, h.cfg]; exact mapNext_withRequest h.cfg h.start
  | pwr => exact h.mapNext_exec_pwr (hbyte rfl)
  | prd => exact h.mapNext_exec_prd

theorem mapErrorOfRead_id (a : ReadAnswer) : mapErrorOfRead id a = a := by cases a <;> rfl

/-! ### `tx_frame` (R25) -/

def State.setTxFrame (f : Frame) (s : State) : State := { s with txFrame := f }

theorem State.endWrite_setTxFrame (f : Frame) (s : State) (b : Byte) (a : WriteAnswer) :
    ((s.setTxFrame f).endWrite b a).setTxFrame f = (s.endWrite b a).setTxFrame f := by
  cases a <;> rfl

theorem alike_setTxFrame (f : Frame) (s : State) :
    Alike id (State.setTxFrame f) (State.setTxFrame f) (s.setTxFrame f) s where
  phase := rfl
  cfg := rfl
  rxBuf := rfl
  readAnswer := (mapErrorOfRead_id _).symm
  ret _ _ := rfl
  start _ := rfl
  endWrite b := s.endWrite_setTxFrame f b _
  readBlocked := rfl
  readFailed _ := rfl
  gotEarly _ := rfl
  gotNinth _ _ _ := rfl

theorem exec_keeps_txFrame {i : Instr} {t : State} (hi : startsExchange i = false) (h : exec i s = .next t) :
    t.txFrame = s.txFrame := by
  cases exec_effect h with
  | start f hs => cases hi.symm.trans hs
  | codec | noWrite | writeBlocked | writeFailed | accepted | noRead | readBlocked | readFailed | gotEarly
  | gotNinth => rfl

/-- Settles O29: of the effects only a start writes `tx_frame` (`exec_keeps_txFrame`), and states that differ in it
are alike (`alike_setTxFrame`) but for the byte `PWR` takes, of which the premise speaks. -/
theorem txFrameWrittenByStartReadByPollWrite : Obligations.TxFrameWrittenByStartReadByPollWrite := by
  unfold Obligations.TxFrameWrittenByStartReadByPollWrite
  exact ⟨fun i s t => exec_keeps_txFrame, fun i s f hbyte => (alike_setTxFrame f s).mapNext_exec hbyte⟩

/-! ### The result port (R23, R211) -/

def State.setResult (r : Option Result) (s : State) : State := { s with result := r }

theorem State.endWrite_setResult (r : Option Result) (s : State) (b : Byte) (a : WriteAnswer) :
    (s.setResult r).endWrite b a = s.endWrite b a := by
  cases a <;> rfl

theorem alike_setResult (r : Option Result) (s : State) : Alike id id id (s.setResult r) s where
  phase := rfl
  cfg := rfl
  rxBuf := rfl
  readAnswer := (mapErrorOfRead_id _).symm
  ret _ _ := rfl
  start _ := rfl
  endWrite b := s.endWrite_setResult r b _
  readBlocked := rfl
  readFailed _ := rfl
  gotEarly _ := rfl
  gotNinth _ _ _ := rfl

theorem mapNext_id (o : Host.Outcome State Fault Refusal) : mapNext id o = o := by cases o <;> rfl

theorem exec_setResult (i : Instr) (r : Option Result) (s : State) : exec i (s.setResult r) = exec i s := by
  rw [← mapNext_id (exec i (s.setResult r)), ← mapNext_id (exec i s)]
  exact (alike_setResult r s).mapNext_exec fun _ _ => rfl

/-- Settles O33: the first operation does not read the port (`exec_setResult`), so all that follows is the same. -/
theorem noStatusIsSticky : Obligations.NoStatusIsSticky := by
  unfold Obligations.NoStatusIsSticky
  intro ops s r hne
  cases ops with
  | nil => exact absurd rfl hne
  | cons i ops =>
    have hfirst : exec i { s with result := r } = exec i s := exec_setResult i r s
    rw [execList, execList, hfirst]

/-! ### Transport errors (D19) -/

theorem mapErrorOfResult_of_ne_transport {r : Result} (h : ∀ e, r ≠ .error (.transport e)) :
    mapErrorOfResult m r = r := by
  cases r with
  | error e =>
    cases e with
    | transport e => exact absurd rfl (h e)
    | unexpectedStartByte | checksumMismatch => rfl
  | ok | okByte | okFrame | okCo2 | okCo2Temp | inProgress | complete | ready => rfl

theorem State.mapErrors_ret {r : Result} (h : ∀ e, r ≠ .error (.transport e)) (s : State) :
    (s.mapErrors m).ret r = (s.ret r).mapErrors m := by
  simp [State.mapErrors, State.ret, mapErrorOfResult_of_ne_transport h]

theorem State.mapErrors_afterWrite (b : Byte) (a : WriteAnswer) (s : State) :
    (s.mapErrors m).afterWrite b (mapErrorOfWrite m a) = (s.afterWrite b a).mapErrors m := by
  cases a <;> simp [State.mapErrors, State.afterWrite, mapErrorOfWrite, List.map_tail]

theorem State.mapErrors_afterRead (a : ReadAnswer) (s : State) :
    (s.mapErrors m).afterRead (mapErrorOfRead m a) = (s.afterRead a).mapErrors m := by
  cases a <;> simp [State.mapErrors, State.afterRead, mapErrorOfRead, List.map_tail]

theorem State.mapErrors_nextWriteAnswer (h : s.writeAnswers ≠ []) :
    (s.mapErrors m).nextWriteAnswer = mapErrorOfWrite m s.nextWriteAnswer := by
  obtain ⟨a, l, hl⟩ := List.exists_cons_of_ne_nil h
  rw [nextWriteAnswer_cons hl]
  exact nextWriteAnswer_cons (l := l.map (mapErrorOfWrite m)) (by simp [State.mapErrors, hl])

theorem State.mapErrors_nextReadAnswer (h : s.readAnswers ≠ []) :
    (s.mapErrors m).nextReadAnswer = mapErrorOfRead m s.nextReadAnswer := by
  obtain ⟨a, l, hl⟩ := List.exists_cons_of_ne_nil h
  rw [nextReadAnswer_cons hl]
  exact nextReadAnswer_cons (l := l.map (mapErrorOfRead m)) (by simp [State.mapErrors, hl])

theorem State.mapErrors_endWrite (b : Byte) (a : WriteAnswer) (s : State) :
    (s.mapErrors m).endWrite b (mapErrorOfWrite m a) = (s.endWrite b a).mapErrors m := by
  have hafter := s.mapErrors_afterWrite (m := m) b a
  cases a with
  | wouldBlock => exact congrArg (State.ret .inProgress) hafter
  | tErr e => exact congrArg (raiseFatal (.transport (m e))) hafter
  | transferred =>
    have hret (r : Result) (hr : ∀ e, r ≠ .error (.transport e)) :
        ((s.mapErrors m).afterWrite b .transferred).advanceTx.ret r =
          ((s.afterWrite b .transferred).advanceTx.ret r).mapErrors m := by
      rw [← State.mapErrors_ret hr]
      exact congrArg (fun t => t.advanceTx.ret r) hafter
    exact hret _ (by split <;> exact nofun)

theorem alike_mapErrors (hw : s.writeAnswers ≠ []) (hr : s.readAnswers ≠ []) :
    Alike m id (State.mapErrors m) (s.mapErrors m) s where
  phase := rfl
  cfg := rfl
  rxBuf := rfl
  readAnswer := State.mapErrors_nextReadAnswer hr
  ret _ h := State.mapErrors_ret h s
  start _ := rfl
  endWrite b := (congrArg _ (State.mapErrors_nextWriteAnswer hw)).trans (s.mapErrors_endWrite b _)
  readBlocked := congrArg (State.ret .inProgress) (s.mapErrors_afterRead .wouldBlock)
  readFailed e := congrArg (raiseFatal (.transport (m e))) (s.mapErrors_afterRead (.tErr e))
  gotEarly b := congrArg (fun t => (t.pushRx b).ret .inProgress) (s.mapErrors_afterRead (.got b))
  gotNinth b r h := (congrArg (fun t => (t.pushRx b).resetToIdle.ret r) (s.mapErrors_afterRead (.got b))).trans
    (State.mapErrors_ret h ((s.afterRead (.got b)).pushRx b).resetToIdle)

/-- Settles O57: a state and the state with its errors mapped are alike (`alike_mapErrors`). -/
theorem transportErrorsAreCarriedUnread : Obligations.TransportErrorsAreCarriedUnread := by
  unfold Obligations.TransportErrorsAreCarriedUnread
  intro g i s hw hr
  rw [← mapNext_id (exec i (s.mapErrors g))]
  exact (alike_mapErrors hw hr).mapNext_exec fun _ _ => rfl

end Sys2Proof.Machine
end

section
/-! Polling a transport that stalls, 42_transceiver.md R141: the state after any number of polls that do not complete,
as a function of the answers they got. -/

namespace Sys2Proof.Machine

variable {s t u : State} {i : Instr}

theorem execList_cons_of_next {ops : List Instr} (h : exec i s = .next t) :
    execList (i :: ops) s = execList ops t := by
  rw [execList, h]

theorem execList_append_of_next {ops ops' : List Instr} (h : execList ops s = .next t) :
    execList (ops ++ ops') s = execList ops' t := by
  induction ops generalizing s with
  | nil => cases h; rfl
  | cons i ops ih =>
    obtain ⟨u, hu, hrest⟩ := execList_cons_next h
    rw [List.cons_append, execList_cons_of_next hu, ih hrest]

theorem execList_replicate_succ {n : Nat} (h : execList (List.replicate n i) s = .next t) :
    execList (List.replicate (n + 1) i) s = exec i t := by
  rw [List.replicate_succ', execList_append_of_next h, execList]
  cases exec i t <;> rfl

theorem take_succ_ne_nil {α : Type} {l : List α} {n : Nat} (h : n < l.length) : l.take (n + 1) ≠ [] :=
  List.ne_nil_of_length_pos (by rw [List.length_take_of_le h]; exact Nat.succ_pos n)

/-! ### `PRD` -/

/-- `s` after polls in `READING` that got these answers, none of them an error, and no ninth byte. -/
def State.afterReads (answers : List ReadAnswer) (s : State) : State :=
  { s with
    rxBuf := s.rxBuf ++ answers.filterMap gotByte
    inHistory := s.inHistory ++ answers.filterMap gotByte
    readAnswers := s.readAnswers.drop answers.length
    attempts := s.attempts + answers.length
    result := if answers = [] then s.result else some .inProgress }

theorem State.afterReads_cons (a : ReadAnswer) (answers : List ReadAnswer) (s : State) :
    (s.afterReads [a]).afterReads answers = s.afterReads (a :: answers) := by
  cases ha : gotByte a <;> simp [State.afterReads, ha, Nat.add_comm, Nat.add_left_comm]

/-- One poll that gets no error and leaves the response short of nine bytes. -/
theorem exec_prd_afterReads {a : ReadAnswer} {rest : List ReadAnswer} (hp : s.phase = .reading)
    (ha : s.readAnswers = a :: rest) (herr : ∀ e, a ≠ .tErr e)
    (hl : (s.afterReads [a]).rxBuf.length < 9) : exec .prd s = .next (s.afterReads [a]) := by
  have hnext := nextReadAnswer_cons ha
  cases a with
  | tErr e => exact absurd rfl (herr e)
  | wouldBlock =>
    rw [exec_prd_wouldBlock hp hnext]
    simp [State.afterReads, State.afterRead, State.ret, gotByte]
  | got b =>
    rw [exec_prd_got hp hnext, finishRead_short (s := (s.afterRead (.got b)).pushRx b) hl]
    simp [State.afterReads, State.afterRead, State.pushRx, State.ret, gotByte]

theorem execList_prd_afterReads {answers rest : List ReadAnswer} (hp : s.phase = .reading)
    (ha : s.readAnswers = answers ++ rest) (herr : ∀ e, ReadAnswer.tErr e ∉ answers)
    (hl : (s.afterReads answers).rxBuf.length < 9) :
    execList (List.replicate answers.length .prd) s = .next (s.afterReads answers) := by
  induction answers generalizing s with
  | nil => simp [State.afterReads, execList]
  | cons a answers ih =>
    rw [← State.afterReads_cons a answers s] at hl ⊢
    have hone : (s.afterReads [a]).rxBuf.length < 9 := Nat.lt_of_le_of_lt (by simp [State.afterReads]) hl
    have hfirst := exec_prd_afterReads hp ha (fun e he => herr e (by simp [he])) hone
    rw [List.length_cons, List.replicate_succ, execList_cons_of_next hfirst]
    refine ih (s := s.afterReads [a]) hp ?_ ?_ hl
    · simp [State.afterReads, ha]
    · exact fun e he => herr e (List.mem_cons_of_mem _ he)

theorem State.afterReads_result {answers : List ReadAnswer} (h : answers ≠ []) (s : State) :
    (s.afterReads answers).result = some .inProgress := if_neg h

/-- Fewer polls than there are answers get the first of them. -/
theorem execList_prd_take {answers rest : List ReadAnswer} {n : Nat} (hp : s.phase = .reading)
    (ha : s.readAnswers = answers ++ rest) (herr : ∀ e, ReadAnswer.tErr e ∉ answers)
    (hl : (s.afterReads answers).rxBuf.length < 9) (hn : n < answers.length) :
    execList (List.replicate (n + 1) .prd) s = .next (s.afterReads (answers.take (n + 1))) := by
  have hlen : (answers.take (n + 1)).length = n + 1 := List.length_take_of_le hn
  have hsplit : s.readAnswers = answers.take (n + 1) ++ (answers.drop (n + 1) ++ rest) := by
    rw [← List.append_assoc, List.take_append_drop, ha]
  have hshort : (s.afterReads (answers.take (n + 1))).rxBuf.length < 9 := by
    refine Nat.lt_of_le_of_lt ?_ hl
    have hsub := ((List.take_sublist (n + 1) answers).filterMap gotByte).length_le
    simpa [State.afterReads] using hsub
  have hrun := execList_prd_afterReads hp hsplit (fun e he => herr e (List.mem_of_mem_take he)) hshort
  rwa [hlen] at hrun

/-- The poll that gets the ninth byte. -/
theorem execList_prd_ninth {answers rest : List ReadAnswer} {f : Frame} {b : Byte} (hp : s.phase = .reading)
    (hbuf : s.rxBuf = []) (ha : s.readAnswers = answers ++ .got b :: rest)
    (herr : ∀ e, ReadAnswer.tErr e ∉ answers) (hf : answers.filterMap gotByte ++ [b] = f.toList) :
    execList (List.replicate (answers.length + 1) .prd) s =
      .next ((((s.afterReads answers).afterRead (.got b)).pushRx b).resetToIdle.ret
        (if f[0] ≠ s.cfg.startByte then .error .unexpectedStartByte
         else if f[8] ≠ checksum f then .error (.checksumMismatch (checksum f) f[8])
         else .ready f)) := by
  have hfull : (((s.afterReads answers).afterRead (.got b)).pushRx b).rxBuf = f.toList := by
    simpa [State.afterReads, hbuf] using hf
  have hl : (s.afterReads answers).rxBuf.length < 9 := by
    have hnine := congrArg List.length hfull
    rw [State.pushRx_rxBuf, List.length_append, Vector.length_toList] at hnine
    exact Nat.lt_of_succ_le (Nat.le_of_eq hnine)
  have hlast : (s.afterReads answers).nextReadAnswer = .got b :=
    nextReadAnswer_cons (l := rest) (by simp [State.afterReads, ha])
  rw [execList_replicate_succ (execList_prd_afterReads hp ha herr hl),
    exec_prd_got (s := s.afterReads answers) hp hlast]
  exact finishRead_full hfull

/-- Settles O25: the polls before the last leave the state of `execList_prd_take`, the last one that of
`execList_prd_ninth`. -/
theorem readIsResilientToStalls : Obligations.ReadIsResilientToStalls := by
  unfold Obligations.ReadIsResilientToStalls
  intro s answers rest f b hp hbuf ha herr hf
  have hl : (s.afterReads answers).rxBuf.length < 9 := by
    have hnine : (answers.filterMap gotByte).length + 1 = 9 := by simpa using congrArg List.length hf
    have hgot : (s.afterReads answers).rxBuf = answers.filterMap gotByte := by simp [State.afterReads, hbuf]
    rw [hgot]
    omega
  refine ⟨fun n hn => ⟨_, execList_prd_take hp ha herr hl hn, ?_, hp⟩, ?_⟩
  · exact State.afterReads_result (take_succ_ne_nil hn) s
  · refine ⟨_, execList_prd_ninth hp hbuf ha herr hf, ⟨rfl, rfl, rfl⟩, ?_, ?_, rfl, rfl⟩
    · simp [State.afterReads, ha]
    · simp [State.afterReads, ← hf]

/-! ### `PWR` -/

/-- `s` after polls in `WRITING` that got these answers, none of them an error, and no ninth acceptance. -/
def State.afterWrites (answers : List WriteAnswer) (s : State) : State :=
  { s with
    txCount := s.txCount + BitVec.ofNat 4 (answers.count .transferred)
    outHistory := s.outHistory ++ (s.txFrame.toList.drop s.txCount.toNat).take (answers.count .transferred)
    writeAnswers := s.writeAnswers.drop answers.length
    attempts := s.attempts + answers.length
    result := if answers = [] then s.result else some .inProgress }

theorem count_transferred_cons (a : WriteAnswer) (answers : List WriteAnswer) :
    (a :: answers).count .transferred = [a].count .transferred + answers.count .transferred := by
  rw [List.count_cons, List.count_singleton, Nat.add_comm]

theorem State.afterWrites_result {answers : List WriteAnswer} (h : answers ≠ []) (s : State) :
    (s.afterWrites answers).result = some .inProgress := if_neg h

/-- Below nine the four bits of `tx_count` count the accepted bytes. -/
theorem State.afterWrites_txCount {answers : List WriteAnswer}
    (h : s.txCount.toNat + answers.count .transferred < 9) :
    (s.afterWrites answers).txCount.toNat = s.txCount.toNat + answers.count .transferred := by
  rw [State.afterWrites, BitVec.toNat_add, BitVec.toNat_ofNat]
  omega

theorem State.afterWrites_cons {a : WriteAnswer} (answers : List WriteAnswer)
    (h : s.txCount.toNat + [a].count .transferred < 9) :
    (s.afterWrites [a]).afterWrites answers = s.afterWrites (a :: answers) := by
  have htx := State.afterWrites_txCount h
  simp only [State.afterWrites] at htx ⊢
  rw [htx, count_transferred_cons a answers, List.take_add, List.drop_drop, BitVec.ofNat_add]
  simp [Nat.add_comm, Nat.add_left_comm, BitVec.add_assoc]

/-- One poll that gets no error and no ninth acceptance. -/
theorem exec_pwr_afterWrites {a : WriteAnswer} {rest : List WriteAnswer} (hp : s.phase = .writing)
    (ha : s.writeAnswers = a :: rest) (herr : ∀ e, a ≠ .tErr e)
    (hl : s.txCount.toNat + [a].count .transferred < 9) : exec .pwr s = .next (s.afterWrites [a]) := by
  have hnext := nextWriteAnswer_cons ha
  have hc : s.txCount.toNat < 9 := Nat.lt_of_le_of_lt (Nat.le_add_right _ _) hl
  cases a with
  | tErr e => exact absurd rfl (herr e)
  | wouldBlock =>
    rw [exec_pwr_wouldBlock hp hc hnext]
    simp [State.afterWrites, State.afterWrite, State.ret]
  | transferred =>
    have h8 : s.txCount.toNat + 1 < 9 := hl
    have h9 : s.txCount + 1#4 ≠ 9#4 := by bv_omega
    rw [exec_pwr_transferred hp hc hnext]
    simp [State.afterWrites, State.afterWrite, State.ret, State.advanceTx, List.drop_eq_getElem_cons, hc, h9]

theorem execList_pwr_afterWrites {answers rest : List WriteAnswer} (hp : s.phase = .writing)
    (ha : s.writeAnswers = answers ++ rest) (herr : ∀ e, WriteAnswer.tErr e ∉ answers)
    (hl : s.txCount.toNat + answers.count .transferred < 9) :
    execList (List.replicate answers.length .pwr) s = .next (s.afterWrites answers) := by
  induction answers generalizing s with
  | nil => simp [State.afterWrites, execList]
  | cons a answers ih =>
    rw [count_transferred_cons a answers] at hl
    have hone : s.txCount.toNat + [a].count .transferred < 9 := by omega
    have hfirst := exec_pwr_afterWrites hp ha (fun e he => herr e (by simp [he])) hone
    rw [List.length_cons, List.replicate_succ, execList_cons_of_next hfirst, ← State.afterWrites_cons answers hone]
    refine ih (s := s.afterWrites [a]) hp ?_ ?_ ?_
    · simp [State.afterWrites, ha]
    · exact fun e he => herr e (List.mem_cons_of_mem _ he)
    · rw [State.afterWrites_txCount hone]
      omega

/-- Fewer polls than there are answers get the first of them. -/
theorem execList_pwr_take {answers rest : List WriteAnswer} {n : Nat} (hp : s.phase = .writing)
    (ha : s.writeAnswers = answers ++ rest) (herr : ∀ e, WriteAnswer.tErr e ∉ answers)
    (hl : s.txCount.toNat + answers.count .transferred < 9) (hn : n < answers.length) :
    execList (List.replicate (n + 1) .pwr) s = .next (s.afterWrites (answers.take (n + 1))) := by
  have hlen : (answers.take (n + 1)).length = n + 1 := List.length_take_of_le hn
  have hsplit : s.writeAnswers = answers.take (n + 1) ++ (answers.drop (n + 1) ++ rest) := by
    rw [← List.append_assoc, List.take_append_drop, ha]
  have hshort : s.txCount.toNat + (answers.take (n + 1)).count .transferred < 9 :=
    Nat.lt_of_le_of_lt (Nat.add_le_add_left ((List.take_sublist _ _).count_le _) _) hl
  have hrun := execList_pwr_afterWrites hp hsplit (fun e he => herr e (List.mem_of_mem_take he)) hshort
  rwa [hlen] at hrun

theorem take_eight_append_last (f : Frame) : f.toList.take 8 ++ [f[8]] = f.toList := by
  have hlast : f[8] = f.toList[8] := rfl
  rw [hlast, List.take_append_getElem, List.take_of_length_le (by simp)]

/-- The poll that gets the ninth acceptance. -/
theorem execList_pwr_ninth {answers rest : List WriteAnswer} (hp : s.phase = .writing) (h0 : s.txCount = 0)
    (ha : s.writeAnswers = answers ++ .transferred :: rest) (herr : ∀ e, WriteAnswer.tErr e ∉ answers)
    (hcount : answers.count .transferred = 8) :
    execList (List.replicate (answers.length + 1) .pwr) s =
      .next (((s.afterWrites answers).afterWrite s.txFrame[8] .transferred).advanceTx.ret .complete) := by
  have hl : s.txCount.toNat + answers.count .transferred < 9 := by simp [h0, hcount]
  have h8 : (s.afterWrites answers).txCount = 8 := by simp [State.afterWrites, h0, hcount]
  have hlast : (s.afterWrites answers).nextWriteAnswer = .transferred :=
    nextWriteAnswer_cons (l := rest) (by simp [State.afterWrites, ha])
  have hbyte : (s.afterWrites answers).txFrame[(s.afterWrites answers).txCount.toNat]? = some s.txFrame[8] := by
    rw [h8]; rfl
  rw [execList_replicate_succ (execList_pwr_afterWrites hp ha herr hl),
    exec_pwr_writing (s := s.afterWrites answers) hp hbyte, hlast, State.endWrite, h8]
  rfl

/-- The wire after the nine accepted bytes (R42). -/
theorem State.afterWrites_outHistory {answers : List WriteAnswer} (h0 : s.txCount = 0)
    (hcount : answers.count .transferred = 8) :
    (s.afterWrites answers).outHistory ++ [s.txFrame[8]] = s.outHistory ++ s.txFrame.toList := by
  simp [State.afterWrites, h0, hcount, take_eight_append_last]

/-- Settles O26: the polls before the last leave the state of `execList_pwr_take`, the last one that of
`execList_pwr_ninth`. -/
theorem writeIsResilientToStalls : Obligations.WriteIsResilientToStalls := by
  unfold Obligations.WriteIsResilientToStalls
  intro s answers rest hp h0 ha herr hcount
  have hl : s.txCount.toNat + answers.count .transferred < 9 := by simp [h0, hcount]
  have h9 : (s.afterWrites answers).txCount + 1 = 9 := by simp [State.afterWrites, h0, hcount]
  refine ⟨fun n hn => ⟨_, execList_pwr_take hp ha herr hl hn, ?_, hp⟩, ?_⟩
  · exact State.afterWrites_result (take_succ_ne_nil hn) s
  · refine ⟨_, execList_pwr_ninth hp h0 ha herr hcount, if_pos h9, h9, rfl, ?_, rfl,
      State.afterWrites_outHistory h0 hcount⟩
    simp [State.afterWrites, ha]

end Sys2Proof.Machine
end

section
/-! The frame commands of 30_encoding.md R64: each starts the exchange of its code, as `BEGIN` does with that code. -/

namespace Sys2Proof.Machine

variable {s : State} {pl : Payload} {i : Instr} {code : CommandCode}

theorem zeroPayload_getElem (k : Nat) (hk : k < 5) : zeroPayload[k] = 0 := by
  match k, hk with
  | 0, _ | 1, _ | 2, _ | 3, _ | 4, _ => rfl

/-- W1: the request of `CMD_READ_CO2` under the source's values. -/
theorem encodeFrame_of_sourceValues {cfg : Params} (h : HasSourceValues cfg) :
    encodeFrame cfg cfg.cmdReadCo2 zeroPayload = #v[0xFF, 0x01, 0x86, 0, 0, 0, 0, 0, 0x79] := by
  obtain ⟨hstart, hindex, hcode, -⟩ := h
  rw [encodeFrame_eq, hstart, hindex, hcode]
  decide

/-- The request of `CMD_READ_CO2` (R64, R65; 95_test_vectors.md W1). -/
def IsReadCo2Request (cfg : Params) (q : Frame) : Prop :=
  q[0] = cfg.startByte ∧ q[1] = cfg.sensorIndex ∧ q[2] = cfg.cmdReadCo2 ∧
    (∀ (k : Nat) (_ : k < 5), q[3 + k] = 0) ∧ q[8] = checksum q ∧ (HasSourceValues cfg → q = #v[0xFF, 0x01, 0x86, 0, 0, 0, 0, 0, 0x79])

theorem encodeFrame_isReadCo2Request (cfg : Params) :
    IsReadCo2Request cfg (encodeFrame cfg cfg.cmdReadCo2 zeroPayload) :=
  ⟨encodeFrame_startByte _ _ _, encodeFrame_sensorIndex _ _ _, encodeFrame_command _ _ _,
    fun k hk => (encodeFrame_payload _ _ _ k hk).trans (zeroPayload_getElem k hk), encodeFrame_checksum _ _ _,
    encodeFrame_of_sourceValues⟩

/-- Settles O38: the command is always admitted (`exec_frameReadCo2_next`), and its frame is the request
(`encodeFrame_isReadCo2Request`). -/
theorem readCo2CommandStartsItsExchange : Obligations.ReadCo2CommandStartsItsExchange := by
  unfold Obligations.ReadCo2CommandStartsItsExchange
  intro s
  obtain ⟨h0, h1, h2, hzeros, h8, hsource⟩ := encodeFrame_isReadCo2Request s.cfg
  exact ⟨_, h0, h1, h2, hzeros, h8, hsource, exec_frameReadCo2_next s⟩

theorem exec_of_carriesCode (h : CarriesCode i code pl) (s : State) :
    exec i s = requestExchange (codeValue s.cfg code) pl s := by
  rcases h with ⟨rfl, rfl⟩ | ⟨rfl, rfl⟩ | ⟨rfl, rfl⟩
  · exact exec_frameReadCo2Temp pl s
  · exact exec_frameGetFirmware pl s
  · exact exec_frameSelfCalibration pl s

/-- Settles O39: both sides are the one request (`exec_of_carriesCode`), and a given code is its own value. -/
theorem frameCommandsAreBeginWithTheirCode : Obligations.FrameCommandsAreBeginWithTheirCode := by
  unfold Obligations.FrameCommandsAreBeginWithTheirCode
  refine ⟨fun s => ?_, fun s pl i code h => ?_, fun cfg c => ⟨?_, ?_, ?_⟩⟩
  · rw [exec_frameReadCo2, exec_beginExchange]
  · rw [exec_of_carriesCode h, exec_beginExchange]
  · intro h; rw [codeValue, h]; rfl
  · intro h; rw [codeValue, h]; rfl
  · intro h; rw [codeValue, h]; rfl

/-- Settles O40: an entry that names the code admits the request under the code's value, given or free
(`commandValid_of_entry`, `payloadValid_of_entry`). -/
theorem frameCommandsWithOpenCodeStart : Obligations.FrameCommandsWithOpenCodeStart := by
  unfold Obligations.FrameCommandsWithOpenCodeStart
  rintro s pl i _ hcode ⟨e, he, rfl, sh, hsh, hadmits⟩
  have hstart := requestExchange_valid (s := s) (commandValid_of_entry he) (payloadValid_of_entry he hsh hadmits)
  exact ⟨encodeFrame s.cfg (codeValue s.cfg e.code) pl, encodeFrame_startByte _ _ _, encodeFrame_sensorIndex _ _ _,
    encodeFrame_command _ _ _, encodeFrame_payload _ _ _, encodeFrame_checksum _ _ _,
    (exec_of_carriesCode hcode s).trans hstart⟩

/-- Settles O56: what `ENC` returns is the frame it builds, which begins with the configured values. -/
theorem resetConfigurationHasTheSourceValues : Obligations.ResetConfigurationHasTheSourceValues := by
  unfold Obligations.ResetConfigurationHasTheSourceValues
  refine ⟨by decide, fun cmd pl s t f hcfg h hr => ?_⟩
  rw [exec_enc] at h
  obtain ⟨-, -, rfl⟩ := withRequest_next h
  cases hr
  rw [encodeFrame_startByte, encodeFrame_sensorIndex, hcfg]
  exact ⟨rfl, rfl⟩

end Sys2Proof.Machine
end

section
/-! The block under a handle's polls: what a poll's result says of the shape it leaves (42_transceiver.md). -/

namespace Sys2Proof.Machine

variable {s t : State}

theorem exec_pwr_results (h : exec .pwr s = .next t) :
    t.result = some .inProgress ∨ t.result = some .complete ∨ ∃ e, t.result = some (.error e) := by
  cases exec_effect h with
  | codec r hi => cases hi
  | start f hi => cases hi
  | noWrite => exact .inr (.inl rfl)
  | writeBlocked => exact .inl rfl
  | writeFailed => exact .inr (.inr ⟨_, rfl⟩)
  | accepted =>
    rw [State.ret_result]
    split
    · exact .inr (.inl rfl)
    · exact .inl rfl

theorem exec_prd_results (h : exec .prd s = .next t) :
    t.result = some .inProgress ∨ (∃ f, t.result = some (.ready f)) ∨ ∃ e, t.result = some (.error e) := by
  cases exec_effect h with
  | codec r hi => cases hi
  | start f hi => cases hi
  | noRead | readBlocked | gotEarly => exact .inl rfl
  | readFailed => exact .inr (.inr ⟨_, rfl⟩)
  | gotNinth b f r hp ha hf hr =>
    rcases hr with ⟨rfl, -⟩ | ⟨e, rfl, -⟩
    · exact .inr (.inl ⟨f, rfl⟩)
    · exact .inr (.inr ⟨e, rfl⟩)

theorem State.WritingShape.of_exec_pwr (hs : s.WritingShape) (h : exec .pwr s = .next t)
    (hr : t.result = some .inProgress) : t.WritingShape := by
  cases exec_effect h with
  | codec r hi => cases hi
  | start f hi => cases hi
  | noWrite | writeFailed => cases hr
  | writeBlocked => exact hs
  | accepted b hp hb ha =>
    rw [State.ret_result] at hr
    split at hr
    · cases hr
    next h9 =>
      have hw : (s.afterWrite b .transferred).WritingShape := hs
      exact hw.advanceTx_inv.writingShape ((if_neg h9).trans hp)

theorem State.WritingShape.readingShape_of_exec_pwr (hs : s.WritingShape) (h : exec .pwr s = .next t)
    (hr : t.result = some .complete) : t.ReadingShape := by
  cases exec_effect h with
  | codec r hi => cases hi
  | start f hi => cases hi
  | noWrite hp => exact absurd hs.1 hp
  | writeBlocked | writeFailed => cases hr
  | accepted b hp hb ha =>
    rw [State.ret_result] at hr
    split at hr
    next h9 =>
      have hw : (s.afterWrite b .transferred).WritingShape := hs
      exact hw.advanceTx_inv.readingShape (if_pos h9)
    · cases hr

theorem State.ReadingShape.of_exec_prd (hs : s.ReadingShape) (h : exec .prd s = .next t)
    (hr : t.result = some .inProgress) : t.ReadingShape := by
  obtain ⟨hp, hc, hb⟩ := hs
  cases exec_effect h with
  | codec r hi => cases hi
  | start f hi => cases hi
  | noRead hnot => exact absurd hp hnot
  | readFailed => cases hr
  | readBlocked => exact ⟨hp, hc, hb⟩
  | gotEarly b _ _ hl => exact ⟨hp, hc, by simpa using hl⟩
  | gotNinth b f r _ _ _ hend =>
    cases hr
    rcases hend with ⟨hready, -⟩ | ⟨e, herr, -⟩
    · cases hready
    · cases herr

end Sys2Proof.Machine
end

section
/-! The handle's machine of 43_host_boundary.md R168: what a call answers on each result of the block, and the one
inversion over all calls. -/

namespace Sys2Proof.Machine

variable {hp : HostParams} {h h' : Handle} {k : Composite} {r : HandleResult} {s t : State} {f : Frame}

/-! ### The calls, result by result -/

theorem issue_of_next {i : Instr} {c : State → HandleOutcome} (ht : exec i s = .next t) : issue i s c = c t := by
  rw [issue, ht]

theorem Handle.call_of_idle (ha : k.availableOn h.dialect = true) (hi : h.phase = .idle) :
    Handle.call hp k h =
      issue (k.startInstr hp) h.block fun t => .next ({ h with phase := .write k, block := t }, .inProgress) := by
  simp only [Handle.call, ha, hi, Bool.true_eq_false, if_false]

theorem Handle.call_of_write (ha : k.availableOn h.dialect = true) (hw : h.phase = .write k) :
    Handle.call hp k h = Handle.pollWrite k h := by
  simp only [Handle.call, ha, hw, Bool.true_eq_false, if_false, if_true]

theorem Handle.call_of_read (ha : k.availableOn h.dialect = true) (hr : h.phase = .read k) :
    Handle.call hp k h = Handle.pollRead hp k h := by
  simp only [Handle.call, ha, hr, Bool.true_eq_false, if_false, if_true]

theorem Handle.pollWrite_inProgress (ht : exec .pwr h.block = .next t) (hr : t.result = some .inProgress) :
    Handle.pollWrite k h = .next ({ h with block := t }, .inProgress) := by
  rw [Handle.pollWrite, issue_of_next ht, hr]

theorem Handle.pollWrite_complete (ht : exec .pwr h.block = .next t) (hr : t.result = some .complete) :
    Handle.pollWrite k h = .next ({ h with phase := .read k, block := t }, .inProgress) := by
  rw [Handle.pollWrite, issue_of_next ht, hr]

theorem Handle.pollWrite_error {e : BlockError} (ht : exec .pwr h.block = .next t)
    (hr : t.result = some (.error e)) :
    Handle.pollWrite k h = .next ({ h with phase := .idle, block := t }, .err (.block e)) := by
  rw [Handle.pollWrite, issue_of_next ht, hr]

theorem Handle.pollRead_inProgress (ht : exec .prd h.block = .next t) (hr : t.result = some .inProgress) :
    Handle.pollRead hp k h = .next ({ h with block := t }, .inProgress) := by
  rw [Handle.pollRead, issue_of_next ht, hr]

theorem Handle.pollRead_ready (ht : exec .prd h.block = .next t) (hr : t.result = some (.ready f)) :
    Handle.pollRead hp k h = Handle.finish hp k h f t := by
  rw [Handle.pollRead, issue_of_next ht, hr]

theorem Handle.pollRead_error {e : BlockError} (ht : exec .prd h.block = .next t)
    (hr : t.result = some (.error e)) :
    Handle.pollRead hp k h = .next ({ h with phase := .idle, block := t }, .err (.block e)) := by
  rw [Handle.pollRead, issue_of_next ht, hr]

theorem Handle.finish_readCo2 (hp : HostParams) (h : Handle) (f : Frame) (t : State) :
    Handle.finish hp .readCo2 h f t =
      .next ({ h with phase := .idle, block := t.ret (.okCo2 (extractCo2 f)) }, .co2 (extractCo2 f)) := rfl

theorem Handle.finish_readCo2Temp (hp : HostParams) (h : Handle) (f : Frame) (t : State) :
    Handle.finish hp .readCo2Temp h f t =
      .next ({ h with phase := .idle, block := t.ret (.okCo2Temp (extractCo2 f) (extractTemp t.cfg f)) },
        .co2Temp (extractCo2 f) (extractTemp t.cfg f)) := rfl

theorem Handle.finish_upgrade_of_le (hv : hp.fwExtendedMin ≤ hp.fwVersionOf f) :
    Handle.finish hp .upgrade h f t = .next ({ dialect := .extended, phase := .idle, block := t }, .upgraded) :=
  if_pos hv

theorem Handle.finish_upgrade_of_lt (hv : hp.fwVersionOf f < hp.fwExtendedMin) :
    Handle.finish hp .upgrade h f t = .next ({ h with phase := .idle, block := t }, .err .unsupportedFirmware) :=
  if_neg (Nat.not_le_of_lt hv)

/-- Settles O50: the poll gets the response (`Handle.pollRead_ready`), and the version decides the end. -/
theorem upgradeFollowsTheFirmwareVersion : Obligations.UpgradeFollowsTheFirmwareVersion := by
  unfold Obligations.UpgradeFollowsTheFirmwareVersion
  intro hp h t f hbase hread ht hr
  have hcall : Handle.call hp .upgrade h = Handle.finish hp .upgrade h f t :=
    (Handle.call_of_read (by rw [hbase]; rfl) hread).trans (Handle.pollRead_ready ht hr)
  refine ⟨fun hv => hcall.trans (Handle.finish_upgrade_of_le hv), fun hv => ?_⟩
  rw [hcall, Handle.finish_upgrade_of_lt hv, hbase]

/-! ### The inversion -/

/-- Everything a call of composite `k` that returns can do. -/
inductive HandleStep (hp : HostParams) (k : Composite) (h : Handle) : Handle → HandleResult → Prop
  | started (t : State) (hi : h.phase = .idle) (ht : exec (k.startInstr hp) h.block = .next t) :
      HandleStep hp k h { h with phase := .write k, block := t } .inProgress
  /-- Another composite is exchanging (R165). -/
  | busy (j : Composite) (hj : j ≠ k) (hphase : h.phase = .write j ∨ h.phase = .read j) :
      HandleStep hp k h h (.err .usageError)
  | writing (t : State) (hw : h.phase = .write k) (ht : exec .pwr h.block = .next t)
      (hr : t.result = some .inProgress) : HandleStep hp k h { h with block := t } .inProgress
  | written (t : State) (hw : h.phase = .write k) (ht : exec .pwr h.block = .next t)
      (hr : t.result = some .complete) : HandleStep hp k h { h with phase := .read k, block := t } .inProgress
  | writeFailed (t : State) (e : BlockError) (hw : h.phase = .write k) (ht : exec .pwr h.block = .next t)
      (hr : t.result = some (.error e)) :
      HandleStep hp k h { h with phase := .idle, block := t } (.err (.block e))
  | reading (t : State) (hw : h.phase = .read k) (ht : exec .prd h.block = .next t)
      (hr : t.result = some .inProgress) : HandleStep hp k h { h with block := t } .inProgress
  | readFailed (t : State) (e : BlockError) (hw : h.phase = .read k) (ht : exec .prd h.block = .next t)
      (hr : t.result = some (.error e)) :
      HandleStep hp k h { h with phase := .idle, block := t } (.err (.block e))
  | co2 (t : State) (f : Frame) (v : BitVec 16) (hw : h.phase = .read k) (ht : exec .prd h.block = .next t)
      (hr : t.result = some (.ready f)) :
      HandleStep hp k h { h with phase := .idle, block := t.ret (.okCo2 v) } (.co2 v)
  | co2Temp (t : State) (f : Frame) (v c : BitVec 16) (hw : h.phase = .read k)
      (ht : exec .prd h.block = .next t) (hr : t.result = some (.ready f)) :
      HandleStep hp k h { h with phase := .idle, block := t.ret (.okCo2Temp v c) } (.co2Temp v c)
  | upgraded (t : State) (f : Frame) (hk : k = .upgrade) (hw : h.phase = .read k)
      (ht : exec .prd h.block = .next t) (hr : t.result = some (.ready f)) :
      HandleStep hp k h { dialect := .extended, phase := .idle, block := t } .upgraded
  | unsupported (t : State) (f : Frame) (hw : h.phase = .read k) (ht : exec .prd h.block = .next t)
      (hr : t.result = some (.ready f)) :
      HandleStep hp k h { h with phase := .idle, block := t } (.err .unsupportedFirmware)

theorem Handle.pollWrite_step (hp : HostParams) (hw : h.phase = .write k) (ht : exec .pwr h.block = .next t) :
    ∃ h' r, Handle.pollWrite k h = .next (h', r) ∧ HandleStep hp k h h' r := by
  rcases exec_pwr_results ht with hr | hr | ⟨e, hr⟩
  · exact ⟨_, _, Handle.pollWrite_inProgress ht hr, .writing t hw ht hr⟩
  · exact ⟨_, _, Handle.pollWrite_complete ht hr, .written t hw ht hr⟩
  · exact ⟨_, _, Handle.pollWrite_error ht hr, .writeFailed t e hw ht hr⟩

theorem Handle.finish_step (hw : h.phase = .read k) (ht : exec .prd h.block = .next t)
    (hr : t.result = some (.ready f)) :
    ∃ h' r, Handle.finish hp k h f t = .next (h', r) ∧ HandleStep hp k h h' r := by
  cases k with
  | readCo2 => exact ⟨_, _, Handle.finish_readCo2 hp h f t, .co2 t f _ hw ht hr⟩
  | readCo2Temp => exact ⟨_, _, Handle.finish_readCo2Temp hp h f t, .co2Temp t f _ _ hw ht hr⟩
  | upgrade =>
    rcases Nat.lt_or_ge (hp.fwVersionOf f) hp.fwExtendedMin with hv | hv
    · exact ⟨_, _, Handle.finish_upgrade_of_lt hv, .unsupported t f hw ht hr⟩
    · exact ⟨_, _, Handle.finish_upgrade_of_le hv, .upgraded t f rfl hw ht hr⟩

theorem Handle.pollRead_step (hw : h.phase = .read k) (ht : exec .prd h.block = .next t) :
    ∃ h' r, Handle.pollRead hp k h = .next (h', r) ∧ HandleStep hp k h h' r := by
  rcases exec_prd_results ht with hr | ⟨f, hr⟩ | ⟨e, hr⟩
  · exact ⟨_, _, Handle.pollRead_inProgress ht hr, .reading t hw ht hr⟩
  · rw [Handle.pollRead_ready ht hr]
    exact Handle.finish_step hw ht hr
  · exact ⟨_, _, Handle.pollRead_error ht hr, .readFailed t e hw ht hr⟩

/-- A call that returns has got a next state from the operation it issued. -/
theorem issue_next {i : Instr} {c : State → HandleOutcome} (hc : issue i s c = .next (h', r)) :
    ∃ t, exec i s = .next t ∧ c t = .next (h', r) := by
  rw [issue] at hc
  split at hc
  next t ht => exact ⟨t, ht, hc⟩
  · cases hc
  · cases hc

theorem Handle.available_of_call (hc : Handle.call hp k h = .next (h', r)) : k.availableOn h.dialect = true := by
  rw [Handle.call] at hc
  split at hc
  · cases hc
  next ha => exact Bool.of_not_eq_false ha

theorem Handle.call_step (hc : Handle.call hp k h = .next (h', r)) : HandleStep hp k h h' r := by
  have ha := Handle.available_of_call hc
  have hsame {o : HandleOutcome} (ho : Handle.call hp k h = o)
      (hstep : ∃ h₂ r₂, o = .next (h₂, r₂) ∧ HandleStep hp k h h₂ r₂) : HandleStep hp k h h' r := by
    obtain ⟨h₂, r₂, hnext, hstep⟩ := hstep
    cases (hc.symm.trans ho).trans hnext
    exact hstep
  cases hphase : h.phase with
  | idle =>
    rw [Handle.call_of_idle ha hphase] at hc
    obtain ⟨t, ht, hnext⟩ := issue_next hc
    cases hnext
    exact .started t hphase ht
  | write j =>
    by_cases hj : j = k
    · subst hj
      rw [Handle.call_of_write ha hphase] at hc
      obtain ⟨t, ht, -⟩ := issue_next hc
      exact hsame (Handle.call_of_write ha hphase) (Handle.pollWrite_step hp hphase ht)
    · exact hsame (Handle.call_of_write_ne hp ha hphase hj) ⟨_, _, rfl, .busy j hj (.inl hphase)⟩
  | read j =>
    by_cases hj : j = k
    · subst hj
      rw [Handle.call_of_read ha hphase] at hc
      obtain ⟨t, ht, -⟩ := issue_next hc
      exact hsame (Handle.call_of_read ha hphase) (Handle.pollRead_step hphase ht)
    · exact hsame (Handle.call_of_read_ne hp ha hphase hj) ⟨_, _, rfl, .busy j hj (.inr hphase)⟩

/-- Settles O49: only the step that reports an upgrade sets the dialect, and the upgrade is available on a base handle
only. -/
theorem dialectChangesOnlyByUpgrade : Obligations.DialectChangesOnlyByUpgrade := by
  unfold Obligations.DialectChangesOnlyByUpgrade
  intro hp h h' k r hc
  cases Handle.call_step hc with
  | upgraded t f hk =>
    have hbase := Handle.available_of_call hc
    subst hk
    cases hd : h.dialect with
    | base => exact .inr ⟨rfl, rfl, rfl, rfl⟩
    | extended => rw [hd] at hbase; cases hbase
  | started | busy | writing | written | writeFailed | reading | readFailed | co2 | co2Temp | unsupported =>
    exact .inl ⟨rfl, nofun⟩

/-- Settles O51: a step returns a block error exactly when the block's result is that error. -/
theorem handleReturnsBlockErrorsUnchanged : Obligations.HandleReturnsBlockErrorsUnchanged := by
  unfold Obligations.HandleReturnsBlockErrorsUnchanged
  intro hp h h' k r e hphase hc
  cases Handle.call_step hc with
  | started t hi => simp [hi] at hphase
  | busy j hj hother => rcases hphase with hw | hw <;> simp [hw, hj.symm] at hother
  | writing t hw ht hr | written t hw ht hr | reading t hw ht hr => simp [hr]
  | writeFailed t e' hw ht hr | readFailed t e' hw ht hr => simp [hr]
  | co2 | co2Temp => simp
  | upgraded t f hk hw ht hr | unsupported t f hw ht hr => simp [hr]

/-! ### Handle and block in the same phase (R168, R30) -/

theorem Handle.create_agrees (cfg : Params) (tr : Transport) : (Handle.create cfg tr).Agrees := ⟨rfl, rfl, rfl⟩

theorem Handle.Agrees.idleShape (h0 : h.Agrees) (hi : h.phase = .idle) : h.block.IdleShape := by
  rwa [Handle.Agrees, hi] at h0

theorem Handle.Agrees.writingShape (h0 : h.Agrees) (hw : h.phase = .write k) : h.block.WritingShape := by
  rw [Handle.Agrees, hw] at h0
  exact h0.1

theorem Handle.Agrees.readingShape (h0 : h.Agrees) (hr : h.phase = .read k) : h.block.ReadingShape := by
  rw [Handle.Agrees, hr] at h0
  exact h0.1

theorem Composite.startInstr_startsExchange (hp : HostParams) (k : Composite) :
    startsExchange (k.startInstr hp) = true := by
  cases k <;> rfl

/-- Settles O52: each step of the handle's machine goes with the shape its block operation leaves. -/
theorem handleAgreesWithItsBlock : Obligations.HandleAgreesWithItsBlock := by
  unfold Obligations.HandleAgreesWithItsBlock
  refine ⟨Handle.create_agrees, fun hp h h' k r h0 hc => ?_⟩
  have ha := Handle.available_of_call hc
  cases Handle.call_step hc with
  | started t hi ht =>
    obtain ⟨c, pl, rfl⟩ := exec_start (k.startInstr_startsExchange hp) ht
    exact ⟨startExchange_writingShape _ h.block, ha⟩
  | busy => exact h0
  | writing t hw ht hr =>
    have hshape := (h0.writingShape hw).of_exec_pwr ht hr
    show Handle.Agrees { h with block := t }
    rw [Handle.Agrees, hw]
    exact ⟨hshape, ha⟩
  | written t hw ht hr => exact ⟨(h0.writingShape hw).readingShape_of_exec_pwr ht hr, ha⟩
  | writeFailed t e hw ht hr => exact exec_pwr_idleShape_of_error ht hr
  | reading t hw ht hr =>
    have hshape := (h0.readingShape hw).of_exec_prd ht hr
    show Handle.Agrees { h with block := t }
    rw [Handle.Agrees, hw]
    exact ⟨hshape, ha⟩
  | readFailed t e hw ht hr | co2 t f v hw ht hr | co2Temp t f v c hw ht hr | upgraded t f hk hw ht hr
  | unsupported t f hw ht hr =>
    exact (exec_prd_idleShape_or_inProgress ht).resolve_right (by simp [hr])

theorem Handle.Agrees.block_inv (h0 : h.Agrees) : h.block.Inv := by
  cases hphase : h.phase with
  | idle => exact .inl (h0.idleShape hphase)
  | write k => exact .inr (.inl (h0.writingShape hphase))
  | read k => exact .inr (.inr (h0.readingShape hphase))

/-- R168: a call on an exchanging handle that agrees with its block returns. -/
theorem Handle.call_returns (hp : HostParams) (h0 : h.Agrees) (ha : k.availableOn h.dialect = true)
    (hne : h.phase ≠ .idle) : ∃ h' r, Handle.call hp k h = .next (h', r) := by
  cases hphase : h.phase with
  | idle => exact absurd hphase hne
  | write j =>
    by_cases hj : j = k
    · subst hj
      obtain ⟨t, ht⟩ := exec_pwr_completes h0.block_inv
      obtain ⟨h', r, hnext, -⟩ := Handle.pollWrite_step hp hphase ht
      exact ⟨h', r, (Handle.call_of_write ha hphase).trans hnext⟩
    · exact ⟨_, _, Handle.call_of_write_ne hp ha hphase hj⟩
  | read j =>
    by_cases hj : j = k
    · subst hj
      obtain ⟨t, ht⟩ := exec_prd_completes h0.block_inv
      obtain ⟨h', r, hnext, -⟩ := Handle.pollRead_step (hp := hp) hphase ht
      exact ⟨h', r, (Handle.call_of_read ha hphase).trans hnext⟩
    · exact ⟨_, _, Handle.call_of_read_ne hp ha hphase hj⟩

/-- R185: a start returns, or its block refuses it. -/
theorem Handle.call_of_idle_outcome (hp : HostParams) (h0 : h.Agrees) (ha : k.availableOn h.dialect = true)
    (hi : h.phase = .idle) :
    (∃ h' r, Handle.call hp k h = .next (h', r)) ∨ ∃ r, Handle.call hp k h = .refused (.block r) := by
  rw [Handle.call_of_idle ha hi, issue]
  cases hexec : exec (k.startInstr hp) h.block with
  | next t => exact .inl ⟨_, _, rfl⟩
  | fault r => exact absurd hexec (exec_ne_fault h0.block_inv)
  | refused r => exact .inr ⟨r, rfl⟩

/-- Settles O53: an exchanging handle's call returns (`Handle.call_returns`), and an idle one's returns or is refused
by the block (`Handle.call_of_idle_outcome`). -/
theorem handleCallsNeverFail : Obligations.HandleCallsNeverFail := by
  unfold Obligations.HandleCallsNeverFail
  intro hp h k h0 ha
  have hreturns := Handle.call_returns hp h0 ha
  have houtcome : (∃ h' r, Handle.call hp k h = .next (h', r)) ∨
      ∃ r, Handle.call hp k h = .refused (.block r) := by
    by_cases hi : h.phase = .idle
    · exact Handle.call_of_idle_outcome hp h0 ha hi
    · exact .inl (hreturns hi)
  rcases houtcome with ⟨h', r, hnext⟩ | ⟨r, hrefused⟩
  · simp [hnext]
  · exact ⟨by simp [hrefused], by simp [hrefused], by simp [hrefused], hreturns⟩

/-! ### Release (R167, R203) -/

/-- Settles O55: `attach` gives back what `transport` took, so every field of the transport is as it was. -/
theorem releaseGivesTheTransportBack : Obligations.ReleaseGivesTheTransportBack := by
  unfold Obligations.ReleaseGivesTheTransportBack
  intro h cfg h'
  exact ⟨rfl, rfl, Handle.create_agrees cfg h.release, rfl, rfl, rfl, rfl, rfl, rfl, rfl, rfl, rfl, rfl⟩

end Sys2Proof.Machine
end

section
/-! `read_co2_ppm` from an idle handle to the value, 43_host_boundary.md R162: the calls of a handle follow the polls
of its block one by one. -/

namespace Sys2Proof.Machine

variable {hp : HostParams} {h h' : Handle} {k : Composite} {r : Option HandleResult} {r' : HandleResult}
  {t : State} {i : Instr}

/-! ### Several calls -/

theorem Handle.calls_add {m n : Nat} {q : Option HandleResult} (hm : Handle.calls hp k m h r = .next (h', q)) :
    Handle.calls hp k (m + n) h r = Handle.calls hp k n h' q := by
  induction m generalizing h r with
  | zero => cases hm; rw [Nat.zero_add]
  | succ m ih =>
    rw [Nat.succ_add, Handle.calls]
    rw [Handle.calls] at hm
    cases hc : Handle.call hp k h with
    | next p => rw [hc] at hm; exact ih hm
    | fault e => rw [hc] at hm; cases hm
    | refused e => rw [hc] at hm; cases hm

theorem Handle.calls_one (hc : Handle.call hp k h = .next (h', r')) :
    Handle.calls hp k 1 h r = .next (h', some r') := by
  rw [Handle.calls, hc]
  rfl

/-- Calls that each issue `i` and stay in progress leave the handle over the block that as many polls leave. -/
theorem Handle.calls_of_stalls {m : Nat}
    (hstall : ∀ b t, exec i b = .next t → t.result = some .inProgress →
      Handle.call hp k { h with block := b } = .next ({ h with block := t }, .inProgress))
    (hrun : ∀ n, n < m → ∃ t, execList (List.replicate (n + 1) i) h.block = .next t ∧
      t.result = some .inProgress) :
    ∃ u q, execList (List.replicate m i) h.block = .next u ∧
      Handle.calls hp k m h r = .next ({ h with block := u }, q) := by
  induction m with
  | zero => exact ⟨h.block, r, rfl, rfl⟩
  | succ m ih =>
    obtain ⟨u, q, hu, hcalls⟩ := ih fun n hn => hrun n (Nat.lt_succ_of_lt hn)
    obtain ⟨t, ht, hr⟩ := hrun m (Nat.lt_succ_self m)
    have hexec : exec i u = .next t := (execList_replicate_succ hu).symm.trans ht
    exact ⟨t, _, ht, (Handle.calls_add hcalls).trans (Handle.calls_one (hstall u t hexec hr))⟩

/-- The call after the stalled ones, whose operation completes the phase. -/
theorem Handle.calls_of_polls {m : Nat}
    (hstall : ∀ b t, exec i b = .next t → t.result = some .inProgress →
      Handle.call hp k { h with block := b } = .next ({ h with block := t }, .inProgress))
    (hrun : ∀ n, n < m → ∃ t, execList (List.replicate (n + 1) i) h.block = .next t ∧
      t.result = some .inProgress)
    (hend : execList (List.replicate (m + 1) i) h.block = .next t)
    (hlast : ∀ b, exec i b = .next t → Handle.call hp k { h with block := b } = .next (h', r')) :
    Handle.calls hp k (m + 1) h r = .next (h', some r') := by
  obtain ⟨u, q, hu, hcalls⟩ := Handle.calls_of_stalls (r := r) hstall hrun
  have hexec : exec i u = .next t := (execList_replicate_succ hu).symm.trans hend
  exact (Handle.calls_add hcalls).trans (Handle.calls_one (hlast u hexec))

/-! ### The three parts of an exchange -/

/-- The handle after the call that starts `read_co2_ppm`. -/
def Handle.afterStart (h : Handle) : Handle :=
  { h with
    phase := .write .readCo2
    block := startExchange (encodeFrame h.block.cfg h.block.cfg.cmdReadCo2 zeroPayload) h.block }

/-- The handle after the write phase, with these answers before the ninth acceptance. -/
def Handle.afterRequest (w : List WriteAnswer) (h : Handle) : Handle :=
  { h with
    phase := .read .readCo2
    block := ((h.block.afterWrites w).afterWrite h.block.txFrame[8] .transferred).advanceTx.ret .complete }

/-- The handle after the read phase, with these answers before the ninth byte `b` of `f`. -/
def Handle.afterResponse (a : List ReadAnswer) (b : Byte) (f : Frame) (h : Handle) : Handle :=
  { h with
    phase := .idle
    block := ((((h.block.afterReads a).afterRead (.got b)).pushRx b).resetToIdle.ret (.ready f)).ret
      (.okCo2 (extractCo2 f)) }

theorem Handle.calls_start (hp : HostParams) (hi : h.phase = .idle) :
    Handle.calls hp .readCo2 1 h r = .next (h.afterStart, some .inProgress) :=
  Handle.calls_one ((Handle.call_of_idle rfl hi).trans (issue_of_next (exec_frameReadCo2_next h.block)))

/-- One call per write answer puts the request on the wire (R141). -/
theorem Handle.calls_write {w ws : List WriteAnswer} (hphase : h.phase = .write .readCo2)
    (hw : h.block.phase = .writing) (h0 : h.block.txCount = 0)
    (hans : h.block.writeAnswers = w ++ .transferred :: ws) (herr : ∀ e, WriteAnswer.tErr e ∉ w)
    (hcount : w.count .transferred = 8) :
    Handle.calls hp .readCo2 (w.length + 1) h r = .next (h.afterRequest w, some .inProgress) := by
  have hcall (b : State) :
      Handle.call hp .readCo2 { h with block := b } = Handle.pollWrite .readCo2 { h with block := b } :=
    Handle.call_of_write rfl hphase
  obtain ⟨hstalls, -⟩ := writeIsResilientToStalls h.block w ws hw h0 hans herr hcount
  refine Handle.calls_of_polls (fun b t ht hr => ?_) (fun n hn => ?_) (execList_pwr_ninth hw h0 hans herr hcount)
    fun b ht => ?_
  · exact (hcall b).trans (Handle.pollWrite_inProgress ht hr)
  · obtain ⟨t, ht, hr, -⟩ := hstalls n hn
    exact ⟨t, ht, hr⟩
  · exact (hcall b).trans (Handle.pollWrite_complete ht rfl)

/-- One call per read answer gets the response, and the last one its value (R141, R162). -/
theorem Handle.calls_read {a rest : List ReadAnswer} {f : Frame} {b : Byte}
    (hphase : h.phase = .read .readCo2) (hread : h.block.phase = .reading) (hbuf : h.block.rxBuf = [])
    (hans : h.block.readAnswers = a ++ .got b :: rest) (herr : ∀ e, ReadAnswer.tErr e ∉ a)
    (hf : a.filterMap gotByte ++ [b] = f.toList) (hstart : f[0] = h.block.cfg.startByte) (hc : f[8] = checksum f) :
    Handle.calls hp .readCo2 (a.length + 1) h r =
      .next (h.afterResponse a b f, some (.co2 (extractCo2 f))) := by
  have hcall (b : State) :
      Handle.call hp .readCo2 { h with block := b } = Handle.pollRead hp .readCo2 { h with block := b } :=
    Handle.call_of_read rfl hphase
  obtain ⟨hstalls, -⟩ := readIsResilientToStalls h.block a rest f b hread hbuf hans herr hf
  have hend := execList_prd_ninth hread hbuf hans herr hf
  rw [if_neg (by simp [hstart]), if_neg (by simp [hc])] at hend
  refine Handle.calls_of_polls (fun b t ht hr => ?_) (fun n hn => ?_) hend fun b ht => ?_
  · exact (hcall b).trans (Handle.pollRead_inProgress ht hr)
  · obtain ⟨t, ht, hr, -⟩ := hstalls n hn
    exact ⟨t, ht, hr⟩
  · exact (hcall b).trans (Handle.pollRead_ready ht rfl)

/-- Settles O54: the start, the calls of the write phase and those of the read phase, one after the other. -/
theorem readCo2EndToEnd : Obligations.ReadCo2EndToEnd := by
  unfold Obligations.ReadCo2EndToEnd
  intro hp h w a ws as f b hi hw ha hwerr hcount haerr hf hstart hc
  have h9 : (h.afterStart.block.afterWrites w).txCount + 1 = 9 := by
    simp [State.afterWrites, Handle.afterStart, startExchange, hcount]
  have hstarted := Handle.calls_start (r := none) hp hi
  have hwritten := Handle.calls_write (hp := hp) (r := some .inProgress) (h := h.afterStart) rfl rfl rfl hw hwerr
    hcount
  have hread := Handle.calls_read (hp := hp) (r := some .inProgress) (h := h.afterStart.afterRequest w) rfl
    (if_pos h9) rfl ha haerr hf hstart hc
  have hwire := State.afterWrites_outHistory (s := h.afterStart.block) rfl hcount
  obtain ⟨q0, q1, q2, hzeros, q8, hsource⟩ := encodeFrame_isReadCo2Request h.block.cfg
  refine ⟨(h.afterStart.afterRequest w).afterResponse a b f, extractCo2 f, ?_, extractCo2_toNat f, rfl, rfl,
    ⟨rfl, rfl, rfl⟩, _, q0, q1, q2, hzeros, q8, hsource, hwire⟩
  rw [Nat.add_assoc, Handle.calls_add hstarted, Handle.calls_add hwritten, hread]

end Sys2Proof.Machine
end
